-- ==== Sys2Proof/Word.lean ====
section
/-! DEFINITION. The word types of the block and their plainest arithmetic (00_scope.md R8 to R10). -/

namespace Sys2Proof

/-- A 32-bit word: every bus register, stream word and command word (R8). -/
abbrev Word := BitVec 32

/-- A 64-bit physical address or size (R8). -/
abbrev Addr := BitVec 64

/-- A byte of the physical address space (R70). -/
abbrev Byte := BitVec 8

/-- `zext_64(v)` of R10. -/
def zext64 (w : Word) : Addr := w.setWidth 64

/-- `hi : lo` of R10 and R158. -/
def hiLo (hi lo : Word) : Addr := hi ++ lo

/-- The address of a 32-bit word, of its number: a multiple of 4 (R75). -/
def wordAddr (k : BitVec 62) : Addr := k ++ 0#2

/-- The offset of a 32-bit word inside a 4 KiB window, of its number: below 0x1000, a multiple of 4 (R80). -/
def windowOffset (k : BitVec 10) : Addr := 0#52 ++ k ++ 0#2

/-- The base of a 4 KiB page, of its number. -/
def pageBase (k : BitVec 52) : Addr := k ++ 0#12

/-- Bits 31:0 of a 64-bit value. -/
def lowWord (a : Addr) : Word := a.extractLsb' 0 32

/-- Bits 63:32 of a 64-bit value. -/
def highWord (a : Addr) : Word := a.extractLsb' 32 32

end Sys2Proof
end

