-- ==== Sys2Proof/Syntax.lean ====
section
/-! DEFINITION. The 39 rows of spec/opcode_table.json, one constructor each: the 17 descriptor words of
30_encoding.md R100 to R113 and the 22 commands of R117. Every bit of a descriptor word is kept in a
field, the ignored ones too, so that a term stands for one word. -/

namespace Sys2Proof

/-- An instruction of the block: a descriptor word, as the position it is read at makes it, or a command. -/
inductive Instr where
  /-- CIA, the first identity word (R102). -/
  | cia (mfg cid : BitVec 12) (ccl : BitVec 4)
  /-- CIB, the second identity word, read by position (R103); `valid` is its bit 0, not checked. -/
  | cib (rev : BitVec 8) (nsw nmw nsp nmp : BitVec 5) (valid : BitVec 1)
  /-- MPD, a master-port descriptor (R104); `rsv` is its reserved bits 31:16. -/
  | mpd (rsv : BitVec 16) (mui : BitVec 8) (mp : BitVec 4)
  /-- ASD head of type slave (R105, R106). -/
  | asdSlave (addr : BitVec 20) (sp : BitVec 4) (sz : BitVec 2) (ag32 : BitVec 1)
  /-- ASD head of type bridge. -/
  | asdBridge (addr : BitVec 20) (sp : BitVec 4) (sz : BitVec 2) (ag32 : BitVec 1)
  /-- ASD head of type slave wrapper. -/
  | asdSwrap (addr : BitVec 20) (sp : BitVec 4) (sz : BitVec 2) (ag32 : BitVec 1)
  /-- ASD head of type master wrapper. -/
  | asdMwrap (addr : BitVec 20) (sp : BitVec 4) (sz : BitVec 2) (ag32 : BitVec 1)
  /-- ADDR_HI, read by position after an ASD head with AG32 = 1 (R109). -/
  | addrHi (w : Word)
  /-- SZD, read by position after an ASD head with SZ = 3 (R110); `ignHi`, `ignLo` are bits 11:4 and 2:0. -/
  | szd (size : BitVec 20) (ignHi : BitVec 8) (sg32 : BitVec 1) (ignLo : BitVec 3)
  /-- SIZE_HI, read by position after an SZD with SG32 = 1 (R111). -/
  | sizeHi (w : Word)
  /-- END, the all-ones word 0xFFFFFFFF (R112). -/
  | endOnes
  /-- END.rom, the word 0x0000000F (R112). -/
  | endRom
  /-- INVALID, a word with VALID = 0 at a tagged position (R113); `rest` is bits 31:1. -/
  | invalid (rest : BitVec 31)
  /-- RESERVED.tag011 (R101); `rest` is bits 31:4. -/
  | reserved011 (rest : BitVec 28)
  /-- RESERVED.tag100. -/
  | reserved100 (rest : BitVec 28)
  /-- RESERVED.tag101. -/
  | reserved101 (rest : BitVec 28)
  /-- RESERVED.tag111: TAG 111 and not an END word. -/
  | reserved111 (rest : BitVec 28)
  /-- ATTACH with its configuration record (R118); `fast` is the pairs (coreId, aliasBase). -/
  | attach (transport busGen windowCount chipId chipRev package fastCount : Word)
      (fast : List (Word × Word))
  | detach
  | scan
  | coreCount
  | coreId (index : Word)
  | coreRev (index : Word)
  | corePrimaryAddr (index : Word)
  | corePrimarySize (index : Word)
  | coreSecondaryAddr (index : Word)
  | coreSecondarySize (index : Word)
  | coreWrapperAddr (index : Word)
  | oobRouterAddr
  | switchTo (index : Word)
  | currentFocus
  | accessRegister (index offset mask value : Word)
  | disable (index ioBits : Word)
  | reset (index ioBits resetOnlyBits : Word)
  | isUp (index : Word)
  | cflags (index mask value : Word)
  | sflags (index mask value : Word)
  | armTimeouts
  | clearTimeout
  deriving DecidableEq, Repr

end Sys2Proof
end

