-- ==== Sys2Proof/WellFormed.lean ====
section
/-! DEFINITION. Which terms of `Instr` stand for an encoding of 30_encoding.md: all but an ATTACH whose list
of pairs is not `fastCount` long (R118) and a RESERVED.tag111 that is one of the END words (R101, R112). -/

namespace Sys2Proof

/-- The term is the reading of some word (a descriptor) or of some words (a command). -/
def Instr.wellFormed : Instr → Bool
  | .attach _ _ _ _ _ _ n fast => fast.length == n.toNat
  | .reserved111 rest => rest != 0 && rest != BitVec.allOnes 28
  | _ => true

end Sys2Proof
end

