-- ==== Sys2Proof/Decode.lean ====
section
/-! DEFINITION. The decoder of the two languages of 30_encoding.md, descriptor words (sections 1 to 6) and
commands (section 7), and after it the encoder, written from the same tables. -/

namespace Sys2Proof

/-! ## Positions -/

/-- Where the stream reader reads a word: by its tag, or by position (R100, R113). -/
inductive Position where
  /-- a tagged position: identity search, MPD read or ASD try -/
  | tagged
  /-- right after CIA (R155) -/
  | cib
  /-- after an ASD head with AG32 = 1 (R109) -/
  | addrHi
  /-- after an ASD head with SZ = 3 (R110) -/
  | szd
  /-- after an SZD with SG32 = 1 (R111) -/
  | sizeHi
  deriving DecidableEq, Repr

/-! ## Descriptor words -/

/-- `w[lo+n-1:lo]` of R9. -/
def field (w : Word) (lo n : Nat) : BitVec n := w.extractLsb' lo n

/-- The words that end the stream at the identity position (R112). -/
def endWords : List Word := [0xFFFFFFFF#32, 0x0000000F#32]

/-- An ASD head, by its type field (R105, R106). -/
def decodeAsd (w : Word) : Instr :=
  if field w 6 2 = 0#2 then .asdSlave (field w 12 20) (field w 8 4) (field w 4 2) (field w 3 1)
  else if field w 6 2 = 1#2 then .asdBridge (field w 12 20) (field w 8 4) (field w 4 2) (field w 3 1)
  else if field w 6 2 = 2#2 then .asdSwrap (field w 12 20) (field w 8 4) (field w 4 2) (field w 3 1)
  else .asdMwrap (field w 12 20) (field w 8 4) (field w 4 2) (field w 3 1)

/-- A word at a tagged position, by the table of R101. -/
def decodeTagged (w : Word) : Instr :=
  if field w 0 1 = 0#1 then .invalid (field w 1 31)
  else if w = 0xFFFFFFFF#32 then .endOnes
  else if w = 0x0000000F#32 then .endRom
  else if field w 1 2 = 2#2 then decodeAsd w
  else if field w 1 3 = 0#3 then .cia (field w 20 12) (field w 8 12) (field w 4 4)
  else if field w 1 3 = 1#3 then .mpd (field w 16 16) (field w 8 8) (field w 4 4)
  else if field w 1 3 = 3#3 then .reserved011 (field w 4 28)
  else if field w 1 3 = 4#3 then .reserved100 (field w 4 28)
  else if field w 1 3 = 5#3 then .reserved101 (field w 4 28)
  else .reserved111 (field w 4 28)

/-- A word at the CIB position with TAG 000 (R103). -/
def decodeCib (w : Word) : Instr :=
  .cib (field w 24 8) (field w 19 5) (field w 14 5) (field w 9 5) (field w 4 5) (field w 0 1)

/-- A stream word, as its position makes it. At the CIB position a word whose TAG is not 000 is no CIB
(R199): it is what its tag says, and its meaning there is PE_CIB. -/
def decodeStream : Position → Word → Instr
  | .tagged, w => decodeTagged w
  | .cib, w => if field w 1 3 = 0#3 then decodeCib w else decodeTagged w
  | .addrHi, w => .addrHi w
  | .szd, w => .szd (field w 12 20) (field w 4 8) (field w 3 1) (field w 0 3)
  | .sizeHi, w => .sizeHi w

/-! ## Commands -/

/-- What the command port finds in the words the host has issued. -/
inductive Decoded where
  /-- no word issued -/
  | idle
  /-- the last words begin a command whose operands are not all there yet -/
  | incomplete
  /-- a header with non-zero bits 31:8 (R116) -/
  | reservedBits
  /-- a header with an `OPC` that R117 does not assign -/
  | unassigned (opc : BitVec 8)
  /-- a command and the words after it -/
  | command (i : Instr) (rest : List Word)
  deriving DecidableEq, Repr

/-- The pairs (coreId, aliasBase) of an ATTACH record (R118). -/
def takePairs : List Word → List (Word × Word)
  | a :: b :: rest => (a, b) :: takePairs rest
  | _ => []

/-- ATTACH's operands: seven words, then `fastCount` pairs (R118). -/
def decodeAttach : List Word → Decoded
  | t :: g :: w :: c :: r :: p :: n :: rest =>
    if 2 * n.toNat ≤ rest.length then
      .command (.attach t g w c r p n (takePairs (rest.take (2 * n.toNat)))) (rest.drop (2 * n.toNat))
    else .incomplete
  | _ => .incomplete

/-- A command of one operand word. -/
def decode1 (f : Word → Instr) : List Word → Decoded
  | a :: rest => .command (f a) rest
  | _ => .incomplete

/-- A command of two operand words. -/
def decode2 (f : Word → Word → Instr) : List Word → Decoded
  | a :: b :: rest => .command (f a b) rest
  | _ => .incomplete

/-- A command of three operand words. -/
def decode3 (f : Word → Word → Word → Instr) : List Word → Decoded
  | a :: b :: c :: rest => .command (f a b c) rest
  | _ => .incomplete

/-- A command of four operand words. -/
def decode4 (f : Word → Word → Word → Word → Instr) : List Word → Decoded
  | a :: b :: c :: d :: rest => .command (f a b c d) rest
  | _ => .incomplete

/-- The command with code `opc` (R117) and its operands. -/
def decodeOpc (opc : BitVec 8) (ops : List Word) : Decoded :=
  match opc.toNat with
  | 0x01 => decodeAttach ops
  | 0x02 => .command .detach ops
  | 0x03 => .command .scan ops
  | 0x10 => .command .coreCount ops
  | 0x11 => decode1 .coreId ops
  | 0x12 => decode1 .coreRev ops
  | 0x13 => decode1 .corePrimaryAddr ops
  | 0x14 => decode1 .corePrimarySize ops
  | 0x15 => decode1 .coreSecondaryAddr ops
  | 0x16 => decode1 .coreSecondarySize ops
  | 0x17 => decode1 .coreWrapperAddr ops
  | 0x18 => .command .oobRouterAddr ops
  | 0x20 => decode1 .switchTo ops
  | 0x21 => .command .currentFocus ops
  | 0x30 => decode4 .accessRegister ops
  | 0x40 => decode2 .disable ops
  | 0x41 => decode3 .reset ops
  | 0x42 => decode1 .isUp ops
  | 0x43 => decode3 .cflags ops
  | 0x44 => decode3 .sflags ops
  | 0x50 => .command .armTimeouts ops
  | 0x51 => .command .clearTimeout ops
  | _ => .unassigned opc

/-- The next command of a stream of command words (R116). -/
def decodeCommand : List Word → Decoded
  | [] => .idle
  | h :: ops => if field h 8 24 = 0#24 then decodeOpc (field h 0 8) ops else .reservedBits

/-! ## Encoder -/

/-- The word of a CIA (R102). -/
def ciaWord (mfg cid : BitVec 12) (ccl : BitVec 4) : Word := mfg ++ cid ++ ccl ++ 0b0001#4

/-- The word of a CIB (R103). -/
def cibWord (rev : BitVec 8) (nsw nmw nsp nmp : BitVec 5) (valid : BitVec 1) : Word :=
  rev ++ nsw ++ nmw ++ nsp ++ nmp ++ 0b000#3 ++ valid

/-- The word of an MPD (R104). -/
def mpdWord (rsv : BitVec 16) (mui : BitVec 8) (mp : BitVec 4) : Word := rsv ++ mui ++ mp ++ 0b0011#4

/-- The head word of an ASD whose type field is `st` (R105, R106). -/
def asdWord (st : BitVec 2) (addr : BitVec 20) (sp : BitVec 4) (sz : BitVec 2) (ag32 : BitVec 1) : Word :=
  addr ++ sp ++ st ++ sz ++ ag32 ++ 0b101#3

/-- The word of an SZD (R110). -/
def szdWord (size : BitVec 20) (ignHi : BitVec 8) (sg32 : BitVec 1) (ignLo : BitVec 3) : Word :=
  size ++ ignHi ++ sg32 ++ ignLo

/-- An invalid word (R113). -/
def invalidWord (rest : BitVec 31) : Word := rest ++ 0b0#1

/-- A valid word with a reserved tag (R101). -/
def reservedWord (tag : BitVec 3) (rest : BitVec 28) : Word := rest ++ tag ++ 0b1#1

/-- The operand words of the pairs of an ATTACH record (R118). -/
def pairWords : List (Word × Word) → List Word
  | [] => []
  | p :: rest => p.1 :: p.2 :: pairWords rest

/-- The words of an instruction: one for a descriptor, header and operands for a command (R116, R117). -/
def encode : Instr → List Word
  | .cia m c l => [ciaWord m c l]
  | .cib r a b c d v => [cibWord r a b c d v]
  | .mpd r u p => [mpdWord r u p]
  | .asdSlave a p z g => [asdWord 0 a p z g]
  | .asdBridge a p z g => [asdWord 1 a p z g]
  | .asdSwrap a p z g => [asdWord 2 a p z g]
  | .asdMwrap a p z g => [asdWord 3 a p z g]
  | .addrHi w => [w]
  | .szd s h g l => [szdWord s h g l]
  | .sizeHi w => [w]
  | .endOnes => [0xFFFFFFFF#32]
  | .endRom => [0x0000000F#32]
  | .invalid r => [invalidWord r]
  | .reserved011 r => [reservedWord 3 r]
  | .reserved100 r => [reservedWord 4 r]
  | .reserved101 r => [reservedWord 5 r]
  | .reserved111 r => [reservedWord 7 r]
  | .attach t g w c r p n fast => 0x01#32 :: t :: g :: w :: c :: r :: p :: n :: pairWords fast
  | .detach => [0x02#32]
  | .scan => [0x03#32]
  | .coreCount => [0x10#32]
  | .coreId i => [0x11#32, i]
  | .coreRev i => [0x12#32, i]
  | .corePrimaryAddr i => [0x13#32, i]
  | .corePrimarySize i => [0x14#32, i]
  | .coreSecondaryAddr i => [0x15#32, i]
  | .coreSecondarySize i => [0x16#32, i]
  | .coreWrapperAddr i => [0x17#32, i]
  | .oobRouterAddr => [0x18#32]
  | .switchTo i => [0x20#32, i]
  | .currentFocus => [0x21#32]
  | .accessRegister i o m v => [0x30#32, i, o, m, v]
  | .disable i b => [0x40#32, i, b]
  | .reset i b r => [0x41#32, i, b, r]
  | .isUp i => [0x42#32, i]
  | .cflags i m v => [0x43#32, i, m, v]
  | .sflags i m v => [0x44#32, i, m, v]
  | .armTimeouts => [0x50#32]
  | .clearTimeout => [0x51#32]

/-- The position a descriptor word is read at as this kind; none for a command. -/
def Instr.position : Instr → Option Position
  | .cia .. | .mpd .. | .asdSlave .. | .asdBridge .. | .asdSwrap .. | .asdMwrap .. | .endOnes | .endRom
  | .invalid .. | .reserved011 .. | .reserved100 .. | .reserved101 .. | .reserved111 .. => some .tagged
  | .cib .. => some .cib
  | .addrHi .. => some .addrHi
  | .szd .. => some .szd
  | .sizeHi .. => some .sizeHi
  | .attach .. | .detach | .scan | .coreCount | .coreId .. | .coreRev .. | .corePrimaryAddr ..
  | .corePrimarySize .. | .coreSecondaryAddr .. | .coreSecondarySize .. | .coreWrapperAddr ..
  | .oobRouterAddr | .switchTo .. | .currentFocus | .accessRegister .. | .disable .. | .reset ..
  | .isUp .. | .cflags .. | .sflags .. | .armTimeouts | .clearTimeout => none

/-! ## The spec's encoders of an ASD and of a core table -/

/-- The address types of an ASD (R106). -/
inductive AsdType where
  | slave
  | bridge
  | swrap
  | mwrap
  deriving DecidableEq, Repr

/-- `code(T)` of R121, the type field `ST` of R106. -/
def AsdType.code : AsdType → BitVec 2
  | .slave => 0
  | .bridge => 1
  | .swrap => 2
  | .mwrap => 3

/-- The size code of R121: 0, 1 or 2 for a size of the fixed lookup (R107), else 3. -/
def sizeCode (size : Addr) : BitVec 2 :=
  if size = 0x1000#64 then 0
  else if size = 0x2000#64 then 1
  else if size = 0x4000#64 then 2
  else 3

/-- The size words after an ASD head: none for a size of the lookup, else SZD and, for a size of more than
32 bits, SIZE_HI (R110, R111, R121). -/
def encodeSize (size : Addr) : List Word :=
  if sizeCode size = 3 then
    if highWord size = 0 then [szdWord (size.extractLsb' 12 20) 0 0 0]
    else [szdWord (size.extractLsb' 12 20) 0 1 0, highWord size]
  else []

/-- `ASD sp=P st=T addr=A size=S` as words, the canonical encoder of R121. -/
def encodeAsd (sp : BitVec 4) (st : AsdType) (addr size : Addr) : List Word :=
  if highWord addr = 0 then asdWord st.code (addr.extractLsb' 12 20) sp (sizeCode size) 0 :: encodeSize size
  else asdWord st.code (addr.extractLsb' 12 20) sp (sizeCode size) 1 :: highWord addr :: encodeSize size

/-! ## The opcode table's numbering -/

/-- The words of `w`, 32 bits each, the first the least significant, up to the twelve of the longest ATTACH
that attaches (seven operands and two pairs). -/
def tableWords (nbits w : Nat) : List Word :=
  (List.range 12).map fun k => BitVec.ofNat 32 ((w % 2 ^ nbits) >>> (32 * k))

/-- The rows of the table overlap, since a word's row depends on where it is read (log 20). Of one word
alone the table's reading is this: the 22 assigned headers are commands; a word with bits 3:0 zero that is
not all zero is a CIB; any other word is what it is at a tagged position. -/
def tablePosition (w : Word) : Position :=
  if field w 0 4 = 0#4 ∧ w ≠ 0#32 then .cib else .tagged

/-- The instruction the decoder reads from the word (or words) of an opcode-table row. -/
def decodeTableWord (nbits w : Nat) : Option Instr :=
  match tableWords nbits w with
  | [] => none
  | h :: ops =>
    match decodeCommand (h :: ops) with
    | .command i _ => some i
    | .idle => none
    | .incomplete => none
    | .reservedBits => some (decodeStream (tablePosition h) h)
    | .unassigned _ => some (decodeStream (tablePosition h) h)

end Sys2Proof
end

