-- ==== Sys2Proof/Machine/Types.lean ====
section
/-! DEFINITION. The plain data the state of the block is made of (10_state.md, 00_scope.md R7 and R11,
60_exceptions.md R420 to R422). -/

namespace Sys2Proof.Machine

/-! ## Configuration latched at ATTACH (10_state.md R44) -/

/-- `CFG_TRANSPORT` (R280). -/
inductive Transport where
  | flat
  | windowed
  | legacyWindowed
  deriving DecidableEq, Repr

/-- `CFG_BUS_GEN` (R3). -/
inductive BusGen where
  | advanced
  | legacy
  deriving DecidableEq, Repr

/-- A chip family tag, the value of `chipFamily` (R191); log 8. -/
abbrev Family := Nat

/-- The registers ATTACH latches (R44). -/
structure Cfg where
  transport : Transport
  busGen : BusGen
  /-- 0 on Flat, else 1 or 2 (R190) -/
  windowCount : Nat
  /-- at most two entries (coreId, aliasBase) -/
  fastPath : List (Word × Word)
  family : Family
  deriving DecidableEq, Repr

/-! ## Events (00_scope.md R11, 10_state.md R59) -/

/-- A hardware window of a windowed transport (R51). -/
inductive Window where
  | reg
  | wrap
  deriving DecidableEq, Repr

/-- The path tag of an access: `fast` is the tag FAST of R81. -/
inductive AccessPath where
  | plain
  | fast
  deriving DecidableEq, Repr

/-- A primitive the block emits, with its arguments and, for a read, the value returned (R11, R59). -/
inductive Event where
  /-- `MemRead(pa, 4)` and the value the bus answered -/
  | memRead (path : AccessPath) (pa : Addr) (value : Word)
  /-- `MemWrite(pa, 4, v)` -/
  | memWrite (path : AccessPath) (pa : Addr) (value : Word)
  /-- `WinSet(w, base)` -/
  | winSet (w : Window) (base : Addr)
  /-- `Map(pa, size)` -/
  | map (pa size : Addr)
  /-- `Delay(n)`, in microseconds -/
  | delay (micros : Nat)
  /-- `s <- IrqMask()` and the saved state the host returned -/
  | irqMask (saved : Nat)
  /-- `IrqRestore(s)` -/
  | irqRestore (saved : Nat)
  deriving DecidableEq, Repr

/-! ## Errors (60_exceptions.md) -/

/-- The status codes of R420 that a command returns. -/
inductive Status where
  | ok
  | parseError
  | rangeError
  | timeoutFatal
  | guardRefusal
  deriving DecidableEq, Repr

/-- The causes of a ParseError (R421). -/
inductive ParseCause where
  | noEnd
  | eromPtr
  | badCib
  | badMpd
  | firstAsd
  | high
  | spEmpty (i : Nat)
  | mwMissing (i : Nat)
  | mwSize (i : Nat)
  | swMissing (i : Nat)
  | swSize (i : Nat)
  | bwsFull
  | tableFull
  deriving DecidableEq, Repr

/-- `SCAN_STATUS` (R34); an error carries its cause and the word index at which it was detected (R421). -/
inductive ScanStatus where
  | never
  | ok
  | parseError (cause : ParseCause) (at_ : Word)
  deriving DecidableEq, Repr

/-- What a tolerated wait was waiting for (R422). -/
inductive Waited where
  | pendingOps
  | resetStuck
  deriving DecidableEq, Repr

/-- An entry of the diagnostic log (R422). -/
inductive LogEntry where
  | timeoutTolerated (what : Waited) (wb : Addr)
  | timeoutFatal (b : Addr)
  | guardRefusal (i : Word)
  | warnHigh
  | warnWrapSize
  deriving DecidableEq, Repr

/-! ## The core table and the focus (10_state.md R36 to R43) -/

/-- A row of the core table (R37). -/
structure CoreDescriptor where
  coreIndex : Word
  coreId : BitVec 16
  rawRev : BitVec 8
  primaryAddr : Addr
  primarySize : Addr
  secondaryAddr : Option Addr
  secondarySize : Option Addr
  wrapperAddr : Option Addr
  deriving DecidableEq, Repr

/-- What `FOCUS_REG` and `FOCUS_WRAP` hold: a mapped pointer on Flat, a window otherwise (R42). -/
inductive Handle where
  | mapped (base : Addr)
  | window (w : Window)
  deriving DecidableEq, Repr

/-- FocusState (R42). -/
structure Focus where
  idx : Option Word
  reg : Option Handle
  wrap : Option Handle
  deriving DecidableEq, Repr

/-- The focus of a block with no core in focus: all three registers NONE. -/
def Focus.unset : Focus := { idx := none, reg := none, wrap := none }

/-! ## The scan in progress (10_state.md R31 to R33, 41_topology_scan.md R197) -/

/-- An ASD that TryASD returned (R156). -/
structure Asd where
  port : Nat
  type : AsdType
  addr : Addr
  size : Addr
  deriving DecidableEq, Repr

/-- Which TryASD of R197 is being tried, with the locals of the loop it stands in. -/
inductive AsdSite where
  /-- step 3: the slave ASD of an allow-listed component with no slave port (R204) -/
  | capture
  /-- step 5: the first slave ASD (R206) -/
  | primary
  /-- step 5: the bridge retry (R206) -/
  | bridgeFirst
  /-- step 5: further bridge ASDs (R207) -/
  | bridgeMore
  /-- step 6: further slave ASDs on port 0, `extras` found and the first of them (R209) -/
  | extra (extras : Nat) (first : Option Asd)
  /-- step 7: slave port i, j ASDs found (R211) -/
  | slavePort (i j : Nat)
  /-- step 8: master wrapper i (R212) -/
  | masterWrap (i : Nat)
  /-- step 8: slave wrapper i (R213) -/
  | slaveWrap (i : Nat)
  deriving DecidableEq, Repr

/-- Where the scan stands between two stream reads: what the next word is read as (log 2). -/
inductive ScanPos where
  /-- the identity search (R153) -/
  | identity
  /-- the CIB, by position (R155) -/
  | cib
  /-- `left` master-port descriptors are still to be read (R205) -/
  | mpd (left : Nat)
  /-- a TryASD at this site (R156) -/
  | asd (site : AsdSite)
  /-- ADDR_HI of an accepted head with this low half and size code -/
  | addrHi (site : AsdSite) (addrLo : Word) (sz : BitVec 2)
  /-- SZD of an accepted head with this address -/
  | szd (site : AsdSite) (addr : Addr)
  /-- SIZE_HI of an accepted head with this address and low size half -/
  | sizeHi (site : AsdSite) (addr : Addr) (sizeLo : Word)
  deriving DecidableEq, Repr

/-- The registers of the stream reader and of one component parse (R31 to R33), with the rows written so
far (`N` of R33 is their number, log 17) and the control point. -/
structure ScanRegs where
  cur : Word
  lim : Word
  eromBase : Word
  cia : Word
  cib : Word
  mfg : BitVec 12
  cid : BitVec 12
  ccl : BitVec 4
  rev : BitVec 8
  nmp : BitVec 5
  nsp : BitVec 5
  nmw : BitVec 5
  nsw : BitVec 5
  br : Bool
  pri : Asd
  sec : Option Asd
  wrap : Option Addr
  rows : List CoreDescriptor
  pos : ScanPos
  deriving DecidableEq, Repr

/-- The values the model names for the registers R60 says "hold no value" after ATTACH (log 5). -/
def ScanRegs.unset : ScanRegs where
  cur := 0
  lim := 0
  eromBase := 0
  cia := 0
  cib := 0
  mfg := 0
  cid := 0
  ccl := 0
  rev := 0
  nmp := 0
  nsp := 0
  nmw := 0
  nsw := 0
  br := false
  pri := { port := 0, type := .slave, addr := 0, size := 0 }
  sec := none
  wrap := none
  rows := []
  pos := .identity

/-! ## Parameters (00_scope.md R7) -/

/-- A remapped component id of one chip family (R220, D48). -/
structure IdRemap where
  family : Family
  cid : BitVec 16
  coreId : BitVec 16
  deriving DecidableEq, Repr

/-- A remapped revision of one core of one chip family (R252, D48). -/
structure RevRemap where
  family : Family
  coreId : BitVec 16
  rawRev : BitVec 8
  rev : Word
  deriving DecidableEq, Repr

/-- The parameters of R7 that the spec leaves open or a test varies, as plain data that no step changes
(log 7). The three alias functions are finite tables, the identity (or `false`) outside them (log 9). -/
structure Params where
  maxCores : Nat
  maxBridges : Nat
  strictAsd : Bool
  skipKinds : List (BitVec 12 × BitVec 12)
  captureKinds : List (BitVec 12)
  bridgeKinds : List (BitVec 12 × BitVec 12)
  shortPolls : Nat
  longPolls : Nat
  ackPolls : Nat
  pollPeriodUs : Nat
  resetRetries : Nat
  dlyDisReset : Nat
  dlyDisIo : Nat
  dlyRstAssert : Nat
  dlyRstFinal : Nat
  timeoutExp : Word
  remapId : List IdRemap
  remapRev : List RevRemap
  guardRefuses : List (Family × BitVec 16)
  deriving DecidableEq, Repr

/-! ## The bus (60_exceptions.md R464, 92_eei_decisions.md D35) -/

/-- Who answers a read that the test script does not (log 3). -/
inductive Device where
  /-- any oracle at all: the opaque `Config.busOracle` of the trace so far (R464) -/
  | oracle
  /-- the reference device of D35, with the 4 KiB pages that are wrappers or bridges: their `RESETSTATUS` and
  `ERRLOGSTATUS` read 0, every other location the last value written, 0 if none -/
  | reference (pages : List (BitVec 52))
  deriving DecidableEq, Repr

/-- The physical address space (R70): (address, byte) pairs, addresses rising, no byte that an unlisted
address reads as (log 4). -/
abbrev Memory := List Host.Cell

/-- What lies behind the block's accesses. -/
structure Bus where
  device : Device
  /-- answers of the test script, each for the next read of its address (D35) -/
  script : List (Addr × Word)
  /-- the last value written to each location -/
  mem : Memory
  deriving DecidableEq, Repr

/-! ## Legacy slots (41_topology_scan.md R232) -/

/-- What `legacyIdentify` returns (R232); a sub-bus base is given as its word number (R75). -/
structure LegacyIdent where
  coreId : BitVec 16
  rev : BitVec 8
  isSub : Bool
  subBase : BitVec 62
  subCount : Word
  deriving DecidableEq, Repr, Inhabited

/-- A parameter procedure of the legacy scan: it makes reads of its slot and ends with an identity or a
ParseError (R232, R235; log 8). A read names a page of the slot, the word in that page, and whether REG is
programmed again although it stands at the page. -/
inductive SlotProc where
  | done (id : LegacyIdent)
  | raise (cause : ParseCause)
  | read (again : Bool) (page : BitVec 52) (word : BitVec 10) (next : Word → SlotProc)
  | map (base size : Addr) (next : SlotProc)
  deriving Inhabited

/-! ## Lifecycle (10_state.md R58) -/

/-- The lifecycle states of a core (R58). -/
inductive Lifecycle where
  | unknown
  | disabled
  | resetting
  | enabled
  deriving DecidableEq, Repr

end Sys2Proof.Machine
end

