-- ==== Sys2Proof/Config.lean ====
section
/-! DEFINITION. The implementation parameters of 00_scope.md R7: the values the spec fixes, the suggested
values of the open ones, and the free values, opaque constants nothing can evaluate. -/

namespace Sys2Proof.Config

open Sys2Proof.Machine

/-! ## Values the spec fixes (R7; the layout values are its general-knowledge items, log 26) -/

/-- `CORE_WINDOW_SIZE` (R214). -/
def coreWindowSize : Addr := 0x1000#64

/-- `WINDOW_SIZE` (D41). -/
def windowSize : Addr := 0x1000#64

/-- `BOOT_CORE_BASE` (R50, D40). -/
def bootCoreBase : Addr := 0x18000000#64

/-- `EROM_PTR_OFFSET` (R50, D40). -/
def eromPtrOffset : Addr := 0xFC#64

/-- `EROM_LIMIT_WORDS` (D7). -/
def eromLimitWords : Word := 0x380#32

/-- The wrapper register map of R45, as offsets from a wrapper's base. -/
def ioCtrl : Addr := 0x408#64

/-- `IOSTATUS` (R45). -/
def ioStatus : Addr := 0x500#64

/-- `RESETCTRL` (R45). -/
def resetCtrl : Addr := 0x800#64

/-- `RESETSTATUS` (R45). -/
def resetStatus : Addr := 0x804#64

/-- `ERRLOGCTRL` (R45). -/
def errLogCtrl : Addr := 0x900#64

/-- `ERRLOGDONE` (R45). -/
def errLogDone : Addr := 0x904#64

/-- `ERRLOGSTATUS` (R45). -/
def errLogStatus : Addr := 0x908#64

/-- `IOCTRL.CLOCK_EN` (R46). -/
def clockEn : Word := 1#32

/-- `IOCTRL.FORCE_CLOCK` (R46). -/
def forceClock : Word := 2#32

/-! ## Suggested values of the open parameters (R7) -/

/-- The parameters as the table of R7 gives or suggests them (log 7). -/
def suggested : Params where
  maxCores := 32
  maxBridges := 4
  strictAsd := true
  skipKinds := [(0x43B#12, 0xFFF#12)]
  captureKinds := [0x367#12]
  bridgeKinds := [(0x43B#12, 0x135#12)]
  shortPolls := 5
  longPolls := 1001
  ackPolls := 31
  pollPeriodUs := 10
  resetRetries := 9
  dlyDisReset := 1
  dlyDisIo := 10
  dlyRstAssert := 10
  dlyRstFinal := 1
  timeoutExp := 19#32
  remapId := []
  remapRev := []
  guardRefuses := []

/-! ## Free values -/

/-- The bus oracle of R464: the answer to a read of an address, given every earlier event (log 3). -/
opaque busOracle : List Event → Addr → Word

/-- The mask state the host returns from `IrqMask`, given every earlier event (R11, I29; log 10). -/
opaque irqSaved : List Event → Nat

/-- `chipFamily(chipId, chipRev, package)` (R191, D48; log 8). -/
opaque chipFamily : Word → Word → Word → Family

/-- The word number of `LEGACY_BASE` (R230, D42; log 8). -/
opaque legacyBaseWords : BitVec 62

/-- How many words a legacy slot holds (R230, D42). -/
opaque legacySlotWords : BitVec 62

/-- The word number of the identity register in the bootstrap core's window (R231, D42). -/
opaque legacyIdWord : BitVec 10

/-- `LEGACY_BASE`: any multiple of 4, so that R75 holds of the legacy scan. -/
def legacyBase : Addr := wordAddr legacyBaseWords

/-- `LEGACY_SLOT_SIZE`: any multiple of 4 (R75). -/
def legacySlotSize : Addr := wordAddr legacySlotWords

/-- `LEGACY_ID_OFFSET`: any multiple of 4 inside the window (R75, R80). -/
def legacyIdOffset : Addr := windowOffset legacyIdWord

/-- `legacyHasCount` (R231, D42). -/
opaque legacyHasCount : Family → Word → Bool

/-- `legacyCountField` (R231, D42). -/
opaque legacyCountField : Word → Word

/-- `legacyCountTable` (R231, D42). -/
opaque legacyCountTable : Family → Word

/-- `legacyIdentify` (R232, D42), of the slot at an address. -/
opaque legacyIdentify : Addr → SlotProc

end Sys2Proof.Config
end

