-- ==== Sys2Proof/Machine/State.lean ====
section
/-! DEFINITION. The state of the block (10_state.md), its outcomes, and the state right after reset. -/

namespace Sys2Proof.Machine

/-- What an unlisted address of `bus.mem` reads as on the reference device: 0 (D35; log 4). -/
def Memory.unlisted : Byte := 0

/-- The one canonical form of a memory: addresses strictly rising and inside the 64-bit space, no entry
equal to what an unlisted address reads as. -/
abbrev Memory.wf (m : Memory) : Prop :=
  m.Pairwise (fun a b => a.1 < b.1) ∧ ∀ c ∈ m, c.2 ≠ Memory.unlisted ∧ c.1 < 2 ^ 64

/-- Why the machine would stop with a fault. The block has no bus-error input (R82) and every error of
60_exceptions.md is a status in a next state, so only one reason is left, and no step raises it. -/
inductive Fault where
  /-- Raised by the meanings of CIB, ADDR_HI, SZD and SIZE_HI when given to `exec` at a tagged position,
  where the reader never makes a word of that kind. Safe: `step` never gives it (log 21). -/
  | notAtItsPosition
  deriving DecidableEq, Repr

/-- Why the machine refuses (30_encoding.md R119): errors of the host's use of the interface. -/
inductive Refusal where
  /-- Raised by `exec` alone, for an instruction with no meaning yet. Safe. -/
  | notModelled (mnemonic : String)
  /-- Raised by `fetch`: a header whose `OPC` R117 does not assign (R119, I8). Safe. -/
  | unassignedOpcode (opc : BitVec 8)
  /-- Raised by `fetch`: a header with non-zero bits 31:8 (R116, R119, I8). Safe. -/
  | reservedHeaderBits
  /-- Raised by every command given to `exec` while BUSY = 1 (R57, R119, I7). Safe. -/
  | commandWhileBusy
  /-- Raised by every command but ATTACH while ATTACHED = 0 (R119, I9). Safe. -/
  | detached
  /-- Raised by ATTACH while ATTACHED = 1 (R119, I9). Safe. -/
  | alreadyAttached
  /-- Raised by a descriptor word given to `exec` while no SCAN is in progress: only SCAN reads the stream
  (R72). Safe: `step` never gives it (log 21). -/
  | noScanInProgress
  deriving DecidableEq, Repr

/-- The state of the block, of what it reaches, and of what is observed of it. -/
structure State where
  /-- `ATTACHED` (R44) -/
  attached : Bool
  /-- `BUSY` (R57) -/
  busy : Bool
  /-- the registers latched at ATTACH (R44) -/
  cfg : Cfg
  /-- rows 0 to COUNT-1 of TABLE; COUNT is their number (R36, log 17) -/
  table : List CoreDescriptor
  /-- BWS; BWS_COUNT is its length (R40) -/
  bws : List Addr
  /-- `OOB_ADDR` (R41) -/
  oob : Option Addr
  /-- FocusState (R42) -/
  focus : Focus
  /-- `MAPREG`, the entry of core i at position i (R43, log 25) -/
  mapReg : List (Option Addr)
  /-- `MAPWRAP` (R43) -/
  mapWrap : List (Option Addr)
  /-- `SCAN_STATUS` (R34) -/
  scanStatus : ScanStatus
  /-- the registers of SCAN (R31 to R33) -/
  scan : ScanRegs
  /-- `WINBASE[REG]` (R51, R80) -/
  winReg : Addr
  /-- `WINBASE[WRAP]` (R51, R80) -/
  winWrap : Addr
  /-- the core whose RESET is in progress, of which R58 speaks -/
  resetting : Option Word
  /-- the mask state of an outstanding IrqMask (R56, R472) -/
  irqSaved : Option Nat
  /-- the bus behind the block (R464, D35) -/
  bus : Bus
  /-- the event trace of the run, oldest first (R59) -/
  trace : List Event
  /-- how many events had been emitted when the last command began (log 11) -/
  traceMark : Nat
  /-- how many events had been emitted when the block was last attached (log 29) -/
  attachMark : Nat
  /-- the diagnostic log since ATTACH, oldest first (R422) -/
  log : List LogEntry
  /-- the response of the last ended command: result words, then the status word (R116) -/
  response : List Word
  /-- the command words the host has issued and the block has not read yet (R116, log 1) -/
  commands : List Word
  /-- the parameters (R7, log 7) -/
  params : Params
  deriving DecidableEq, Repr

/-- The detached block, before the first ATTACH (R470). R60 and R470 give the values of the block's own
registers; the others are named in log 5 and log 6. -/
def State.reset : State where
  attached := false
  busy := false
  cfg := { transport := .flat, busGen := .advanced, windowCount := 0, fastPath := [], family := 0 }
  table := []
  bws := []
  oob := none
  focus := Focus.unset
  mapReg := []
  mapWrap := []
  scanStatus := .never
  scan := ScanRegs.unset
  winReg := 0
  winWrap := 0
  resetting := none
  irqSaved := none
  bus := { device := .oracle, script := [], mem := [] }
  trace := []
  traceMark := 0
  attachMark := 0
  log := []
  response := []
  commands := []
  params := Config.suggested

end Sys2Proof.Machine
end

