-- ==== Sys2Proof/Machine/Flags.lean ====
section
/-! DEFINITION. The block has no condition codes (10_state.md R35); in their place stand the status and
cause codes of 60_exceptions.md and the result words of a response (30_encoding.md R116). -/

namespace Sys2Proof.Machine

/-- The status codes of R420. -/
def Status.code : Status → Word
  | .ok => 0
  | .parseError => 1
  | .rangeError => 2
  | .timeoutFatal => 4
  | .guardRefusal => 5

/-- The cause codes of R421. -/
def ParseCause.code : ParseCause → Nat
  | .noEnd => 1
  | .eromPtr => 2
  | .badCib => 3
  | .badMpd => 4
  | .firstAsd => 5
  | .high => 6
  | .spEmpty _ => 7
  | .mwMissing _ => 8
  | .mwSize _ => 9
  | .swMissing _ => 10
  | .swSize _ => 11
  | .bwsFull => 12
  | .tableFull => 13

/-- The port or region index of an indexed cause, 0 of the others (R421). -/
def ParseCause.index : ParseCause → Nat
  | .spEmpty i => i
  | .mwMissing i => i
  | .mwSize i => i
  | .swMissing i => i
  | .swSize i => i
  | .noEnd | .eromPtr | .badCib | .badMpd | .firstAsd | .high | .bwsFull | .tableFull => 0

/-- The cause word: `code | (index << 8)` (R421). -/
def ParseCause.word (c : ParseCause) : Word :=
  BitVec.ofNat 32 c.code ||| (BitVec.ofNat 32 c.index <<< 8)

/-- `code(SCAN_STATUS)` of R250. -/
def ScanStatus.code : ScanStatus → Word
  | .never => 0
  | .ok => 1
  | .parseError _ _ => 2

/-- `cause(SCAN_STATUS)` of R250: the cause word, or 0. -/
def ScanStatus.causeWord : ScanStatus → Word
  | .never => 0
  | .ok => 0
  | .parseError c _ => c.word

/-! ## Response words (R116) -/

/-- A status alone. -/
def answerStatus (st : Status) : List Word := [st.code]

/-- A 32-bit result. -/
def answer32 (v : Word) (st : Status) : List Word := [v, st.code]

/-- A 64-bit result, low word first. -/
def answer64 (v : Addr) (st : Status) : List Word := [lowWord v, highWord v, st.code]

/-- An optional 64-bit result: a presence word, then the value words, 0 when absent. -/
def answerOpt64 (v : Option Addr) (st : Status) : List Word :=
  match v with
  | some a => [1#32, lowWord a, highWord a, st.code]
  | none => [0#32, 0#32, 0#32, st.code]

/-- An optional 32-bit result: a presence word, then the value word, 0 when absent. -/
def answerOpt32 (v : Option Word) (st : Status) : List Word :=
  match v with
  | some a => [1#32, a, st.code]
  | none => [0#32, 0#32, st.code]

/-! ## The lifecycle state (R58) -/

/-- The derived state of a core, of whether a RESET of it is in progress and of its `RESETCTRL` and
`IOCTRL` (R58). -/
def lifecycleOf (resetInProgress : Bool) (resetCtrl ioCtrl : Word) : Lifecycle :=
  if resetInProgress then .resetting
  else if field resetCtrl 0 1 = 1#1 then .disabled
  else if field ioCtrl 0 1 = 1#1 ∧ field ioCtrl 1 1 = 0#1 then .enabled
  else .unknown

end Sys2Proof.Machine
end

