-- ==== Sys2Proof/Machine/Operands.lean ====
section
/-! DEFINITION. What the operands of a command mean: index and offset checks, table lookups, the parameter
functions, the mapping caches, and the addresses an access reaches. -/

namespace Sys2Proof.Machine

/-! ## Index, offset and record checks -/

/-- `TABLE[i]`, present exactly when `i < COUNT` (R249). -/
def State.row (s : State) (i : Word) : Option CoreDescriptor := s.table[i.toNat]?

/-- `COUNT` as the 32-bit register of R36. -/
def State.count (s : State) : Word := BitVec.ofNat 32 s.table.length

/-- Checks (b) and (c) of R310: the offset is inside the core window and a multiple of 4. -/
def offsetOk (off : Word) : Bool :=
  decide ((zext64 off).toNat < Config.coreWindowSize.toNat) && decide (off.toNat % 4 = 0)

/-- `CFG_TRANSPORT` of an ATTACH operand (R118). -/
def transportOf (t : Word) : Option Transport :=
  if t = 0#32 then some .flat else if t = 1#32 then some .windowed
  else if t = 2#32 then some .legacyWindowed else none

/-- `CFG_BUS_GEN` of an ATTACH operand (R118). -/
def busGenOf (g : Word) : Option BusGen :=
  if g = 0#32 then some .advanced else if g = 1#32 then some .legacy else none

/-- The registers ATTACH latches from a record in range, or nothing (R190): the window count is 1 or 2 and
free on Flat, where it latches 0; at most two fast-path pairs, none on Flat. -/
def attachCfg (transport busGen windowCount chipId chipRev package fastCount : Word)
    (fast : List (Word × Word)) : Option Cfg :=
  match transportOf transport, busGenOf busGen with
  | some .flat, some g =>
    if fastCount = 0#32 then
      some { transport := .flat, busGen := g, windowCount := 0, fastPath := []
             family := Config.chipFamily chipId chipRev package }
    else none
  | some t, some g =>
    if (windowCount = 1#32 ∨ windowCount = 2#32) ∧ fastCount.toNat ≤ 2 then
      some { transport := t, busGen := g, windowCount := windowCount.toNat
             fastPath := fast.take fastCount.toNat
             family := Config.chipFamily chipId chipRev package }
    else none
  | _, _ => none

/-! ## Parameter functions (R7, log 9) -/

/-- `remapId(family, cid)` (R220). -/
def Params.remappedId (p : Params) (f : Family) (cid : BitVec 16) : BitVec 16 :=
  match p.remapId.find? (fun e => e.family == f && e.cid == cid) with
  | some e => e.coreId
  | none => cid

/-- `remapRev(family, coreId, rawRev)` (R252). -/
def Params.remappedRev (p : Params) (f : Family) (coreId : BitVec 16) (rawRev : BitVec 8) : Word :=
  match p.remapRev.find? (fun e => e.family == f && e.coreId == coreId && e.rawRev == rawRev) with
  | some e => e.rev
  | none => rawRev.setWidth 32

/-- `guardRefuses(family, coreId)` (R354). -/
def Params.guarded (p : Params) (f : Family) (coreId : BitVec 16) : Bool :=
  p.guardRefuses.contains (f, coreId)

/-- The value ARM_TIMEOUTS writes to `ERRLOGCTRL`: `TO_ENAB` and `TO_EXP` (R49, R391). -/
def errLogCtrlValue (timeoutExp : Word) : Word := (1#32 <<< 9) ||| ((timeoutExp <<< 4) &&& 0x1F0#32)

/-! ## Mapping caches (R43, log 25) -/

/-- The entry of core i: NONE until it is mapped. -/
def cacheGet : List (Option Addr) → Nat → Option Addr
  | [], _ => none
  | e :: _, 0 => e
  | _ :: rest, i + 1 => cacheGet rest i

/-- The cache with core i mapped at `a`, the list padded with NONE up to it. -/
def cacheSet : List (Option Addr) → Nat → Addr → List (Option Addr)
  | [], 0, a => [some a]
  | [], i + 1, a => none :: cacheSet [] i a
  | _ :: rest, 0, a => some a :: rest
  | e :: rest, i + 1, a => e :: cacheSet rest i a

/-! ## Paths (20_memory.md section 5) -/

/-- Whether core windows are reached directly (R79); Windowed and LegacyWindowed behave alike (R236). -/
def State.flat (s : State) : Bool := s.cfg.transport == .flat

/-- `FastPathCore(i)`: on a windowed transport, the lowest index whose coreId has a fast-path entry (R314). -/
def State.fastPathCore (s : State) (i : Word) : Bool :=
  match s.row i with
  | none => false
  | some d =>
    !s.flat && s.cfg.fastPath.any (fun e => e.1 == d.coreId.setWidth 32)
      && s.table.findIdx? (fun e => e.coreId == d.coreId) == some i.toNat

/-- Where an access to wrapper register `x` of the focused core lands: `wb + x` on Flat, `WINBASE[WRAP] + x`
through the wrapper window (R80, R341). -/
def State.wrapperPa (s : State) (wb x : Addr) : Addr :=
  if s.flat then wb + x else s.winWrap + x

/-- The word index, type and port a TryASD site asks for (R204, R206 to R213). -/
def AsdSite.wants (site : AsdSite) (nsp : BitVec 5) : Nat × AsdType :=
  match site with
  | .capture => (0, .slave)
  | .primary => (0, .slave)
  | .bridgeFirst => (0, .bridge)
  | .bridgeMore => (0, .bridge)
  | .extra _ _ => (0, .slave)
  | .slavePort i _ => (i, .slave)
  | .masterWrap i => (i, .mwrap)
  | .slaveWrap i => ((if nsp = 1#5 then 0 else 1) + i, .swrap)

/-- The position of 40_stream_reader.md at which a control point reads its word. -/
def ScanPos.position : ScanPos → Position
  | .identity => .tagged
  | .cib => .cib
  | .mpd _ => .tagged
  | .asd _ => .tagged
  | .addrHi _ _ _ => .addrHi
  | .szd _ _ => .szd
  | .sizeHi _ _ _ => .sizeHi

end Sys2Proof.Machine
end

