-- ==== Sys2Proof/Machine/Ops.lean ====
section
/-! DEFINITION. The operations every command is made of: memory, the primitives of 00_scope.md R11, the focus
switch of 43_focus.md, the masked read-modify-write of 44_masked_access.md R315, how a command begins and
ends (30_encoding.md R116, R119), and the failure of a SCAN (41_topology_scan.md R221), the block's one
"trap entry" (60_exceptions.md R424). -/

namespace Sys2Proof.Machine

/-! ## Memory (log 4) -/

/-- The byte at an address. -/
def Memory.readByte : Memory → Nat → Byte
  | [], _ => Memory.unlisted
  | c :: rest, a => if c.1 = a then c.2 else Memory.readByte rest a

/-- The memory with a byte stored, in canonical form. -/
def Memory.writeByte : Memory → Nat → Byte → Memory
  | [], a, b => if b = Memory.unlisted then [] else [(a, b)]
  | c :: rest, a, b =>
    if a < c.1 then (if b = Memory.unlisted then c :: rest else (a, b) :: c :: rest)
    else if a = c.1 then (if b = Memory.unlisted then rest else (a, b) :: rest)
    else c :: Memory.writeByte rest a b

/-- The 32-bit word at an address, its low byte first (log 4). -/
def Memory.readWord (m : Memory) (pa : Addr) : Word :=
  m.readByte (pa + 3#64).toNat ++ m.readByte (pa + 2#64).toNat ++ m.readByte (pa + 1#64).toNat
    ++ m.readByte pa.toNat

/-- The memory with a 32-bit word stored, its low byte first. -/
def Memory.writeWord (m : Memory) (pa : Addr) (v : Word) : Memory :=
  (((m.writeByte pa.toNat (v.extractLsb' 0 8)).writeByte (pa + 1#64).toNat (v.extractLsb' 8 8)).writeByte
    (pa + 2#64).toNat (v.extractLsb' 16 8)).writeByte (pa + 3#64).toNat (v.extractLsb' 24 8)

/-! ## The primitives (R11) -/

/-- Record an event. -/
def State.emit (e : Event) (s : State) : State := { s with trace := s.trace ++ [e] }

/-- `Log(e)`: no other effect (R422). -/
def State.logEntry (e : LogEntry) (s : State) : State := { s with log := s.log ++ [e] }

/-- `RESETSTATUS` or `ERRLOGSTATUS` of one of these wrapper pages (R45). -/
def isStatusRegister (pages : List (BitVec 52)) (pa : Addr) : Bool :=
  pages.any (fun p => pa == pageBase p + Config.resetStatus || pa == pageBase p + Config.errLogStatus)

/-- What the reference device answers, its memory being `m`: `RESETSTATUS` always reads 0, `ERRLOGSTATUS` reads
0 where the script says nothing, any other location reads the word last written (D35; log 3). -/
def referenceAnswer (pages : List (BitVec 52)) (m : Memory) (pa : Addr) : Word :=
  if isStatusRegister pages pa then 0#32 else m.readWord pa

/-- What the bus answers to a read: the test script's next answer for the address, else the device's (R464,
D35; log 3). -/
def State.busAnswer (s : State) (pa : Addr) : Word :=
  match s.bus.script.find? (fun e => e.1 == pa) with
  | some e => e.2
  | none =>
    match s.bus.device with
    | .oracle => Config.busOracle s.trace pa
    | .reference pages => referenceAnswer pages s.bus.mem pa

/-- `MemRead(pa, 4)`: the value, and the state with the read in the trace. -/
def State.memRead (path : AccessPath) (pa : Addr) (s : State) : Word × State :=
  (s.busAnswer pa,
    { s with bus := { s.bus with script := s.bus.script.eraseP (fun e => e.1 == pa) }
             trace := s.trace ++ [.memRead path pa (s.busAnswer pa)] })

/-- `MemWrite(pa, 4, v)`. -/
def State.memWrite (path : AccessPath) (pa : Addr) (v : Word) (s : State) : State :=
  { s with bus := { s.bus with mem := s.bus.mem.writeWord pa v }
           trace := s.trace ++ [.memWrite path pa v] }

/-- `WinSet(w, base)` (R51). -/
def State.winSet (w : Window) (base : Addr) (s : State) : State :=
  match w with
  | .reg => { s with winReg := base, trace := s.trace ++ [.winSet .reg base] }
  | .wrap => { s with winWrap := base, trace := s.trace ++ [.winSet .wrap base] }

/-- `Map(pa, size)`. -/
def State.map (pa size : Addr) (s : State) : State := s.emit (.map pa size)

/-- `Delay(n)`: an event, no time (R490). -/
def State.delay (n : Nat) (s : State) : State := s.emit (.delay n)

/-- `s <- IrqMask()`: the saved mask state, and the state with it outstanding (R56). -/
def State.irqMask (s : State) : Nat × State :=
  (Config.irqSaved s.trace,
    { s with irqSaved := some (Config.irqSaved s.trace)
             trace := s.trace ++ [.irqMask (Config.irqSaved s.trace)] })

/-- `IrqRestore(s)` (R56). -/
def State.irqRestore (saved : Nat) (s : State) : State :=
  { s with irqSaved := none, trace := s.trace ++ [.irqRestore saved] }

/-! ## Mappings and focus -/

/-- Map core i's register window if its cache entry is NONE (R43, R281, R312). -/
def State.mapCore (i : Word) (base : Addr) (s : State) : State :=
  match cacheGet s.mapReg i.toNat with
  | some _ => s
  | none => { s.map base Config.coreWindowSize with mapReg := cacheSet s.mapReg i.toNat base }

/-- Map core i's wrapper if its cache entry is NONE (R43, R281, R341). -/
def State.mapWrapper (i : Word) (wb : Addr) (s : State) : State :=
  match cacheGet s.mapWrap i.toNat with
  | some _ => s
  | none => { s.map wb Config.coreWindowSize with mapWrap := cacheSet s.mapWrap i.toNat wb }

/-- SWITCH_TO on Flat: only mappings (R281, R284). -/
def State.focusFlat (i : Word) (d : CoreDescriptor) (s : State) : State :=
  match d.wrapperAddr with
  | some wb =>
    let t := (s.mapCore i d.primaryAddr).mapWrapper i wb
    { t with focus := { idx := some i, reg := (cacheGet t.mapReg i.toNat).map .mapped
                        wrap := (cacheGet t.mapWrap i.toNat).map .mapped } }
  | none =>
    let t := s.mapCore i d.primaryAddr
    { t with focus := { idx := some i, reg := (cacheGet t.mapReg i.toNat).map .mapped, wrap := none } }

/-- SWITCH_TO on a windowed transport: the windows are programmed every time (R281 (a)); WRAP only with two
windows and a wrapper, else it is left as it was (R281 (b)). -/
def State.focusWindowed (i : Word) (d : CoreDescriptor) (s : State) : State :=
  let t := s.winSet .reg d.primaryAddr
  match d.wrapperAddr with
  | some wb =>
    if s.cfg.windowCount = 2 then
      { t.winSet .wrap wb with
        focus := { idx := some i, reg := some (.window .reg), wrap := some (.window .wrap) } }
    else { t with focus := { idx := some i, reg := some (.window .reg), wrap := none } }
  | none => { t with focus := { idx := some i, reg := some (.window .reg), wrap := none } }

/-- SWITCH_TO(i), without its response (R281): an index out of range changes nothing. -/
def State.switchTo (i : Word) (s : State) : State :=
  match s.row i with
  | none => s
  | some d => if s.flat then s.focusFlat i d else s.focusWindowed i d

/-- The critical section of R290, R313 and R341: mask interrupts, switch to core i, run `body`, switch back
to a previous focus that is another core, restore the mask. -/
def State.withFocus {α : Type} (i : Word) (body : State → α × State) (s : State) : α × State :=
  let m := s.irqMask
  let r := body (m.2.switchTo i)
  let back := match s.focus.idx with
    | some p => if p = i then r.2 else r.2.switchTo p
    | none => r.2
  (r.1, back.irqRestore m.1)

/-! ## Masked read-modify-write (R315, D69) -/

/-- `RMW` of R311 and CflagsBody of R355: read and write only when `(mask | value) != 0`, then read again. -/
def State.rmw (path : AccessPath) (pa : Addr) (mask value : Word) (s : State) : Word × State :=
  if mask ||| value = 0#32 then s.memRead path pa
  else
    let r := s.memRead path pa
    (r.2.memWrite path pa ((r.1 &&& ~~~mask) ||| value)).memRead path pa

/-! ## How a command begins and ends -/

/-- A command begins: its own part of the trace starts here, and there is no response yet. -/
def State.begin (s : State) : State := { s with traceMark := s.trace.length, response := [] }

/-- A command ends with these response words (R116). -/
def State.respond (ws : List Word) (s : State) : State := { s with response := ws }

/-- A command that ends in its own step: refused while BUSY = 1 or detached (R119), else its body runs and
its response is given. -/
def command (body : State → List Word × State) (s : State) : Host.Outcome State Fault Refusal :=
  if s.busy then .refused .commandWhileBusy
  else if s.attached then .next ((body s.begin).2.respond (body s.begin).1)
  else .refused .detached

/-- The events of the last command (R59). -/
def State.commandTrace (s : State) : List Event := s.trace.drop s.traceMark

/-! ## The end of a SCAN -/

/-- A ParseError (R221, R424): the partial table, the bridge set and the side channel are discarded, the
focus is NONE, the cause is recorded with the cursor (R421), and SCAN ends with status ParseError. -/
def State.parseFail (c : ParseCause) (s : State) : State :=
  { s with table := [], bws := [], oob := none, focus := Focus.unset
           scanStatus := .parseError c s.scan.cur, scan := { s.scan with rows := [] }
           busy := false, response := answerStatus .parseError }

/-- The success epilogue (R222): the rows are the table, and core 0 gets the focus if there is one. -/
def State.scanDone (s : State) : State :=
  State.switchTo 0#32
    { s with table := s.scan.rows, scanStatus := .ok, scan := { s.scan with rows := [] }
             busy := false, response := answerStatus .ok }

end Sys2Proof.Machine
end

