-- ==== Sys2Proof/Machine/Access.lean ====
section
/-! DEFINITION. SWITCH_TO, CURRENT_FOCUS (43_focus.md) and ACCESS_REGISTER (44_masked_access.md). -/

namespace Sys2Proof.Machine

/-- SWITCH_TO (R281): the handle of core i is its index (R282); out of range, the null handle and no
change. -/
def execSwitchTo (i : Word) (s : State) : Host.Outcome State Fault Refusal :=
  command (fun t => match t.row i with
    | some _ => (answerOpt32 (some i) .ok, t.switchTo i)
    | none => (answerOpt32 none .rangeError, t)) s

/-- CURRENT_FOCUS (R286). -/
def execCurrentFocus (s : State) : Host.Outcome State Fault Refusal :=
  command (fun t => (answerOpt32 t.focus.idx .ok, t)) s

/-- The slow path (R313): inside the critical section, through the register window. -/
def State.slowAccess (i off mask value : Word) (s : State) : Word × State :=
  s.withFocus i (fun t => t.rmw .plain (t.winReg + zext64 off) mask value)

/-- The three paths of ACCESS_REGISTER on core i with row `d` (R311 to R314). -/
def State.access (i : Word) (d : CoreDescriptor) (off mask value : Word) (s : State) : Word × State :=
  if s.flat then (s.mapCore i d.primaryAddr).rmw .plain (d.primaryAddr + zext64 off) mask value
  else if s.fastPathCore i then s.rmw .fast (d.primaryAddr + zext64 off) mask value
  else s.slowAccess i off mask value

/-- ACCESS_REGISTER (R310, R311). -/
def execAccessRegister (i off mask value : Word) (s : State) : Host.Outcome State Fault Refusal :=
  command (fun t => match t.row i with
    | some d =>
      if offsetOk off then
        (answer32 (t.access i d off mask value).1 .ok, (t.access i d off mask value).2)
      else (answer32 0 .rangeError, t)
    | none => (answer32 0 .rangeError, t)) s

end Sys2Proof.Machine
end

