-- ==== Sys2Proof/Machine/Stream.lean ====
section
/-! DEFINITION. The descriptor stream reader (40_stream_reader.md) and the control flow of SCAN between two
stream reads (41_topology_scan.md R197). A function here is what R197 does from one read to the next: it
ends at the control point that waits for the next word, or with the end of the scan. -/

namespace Sys2Proof.Machine

/-! ## Reading (R150, R151, R156) -/

/-- The physical address of the stream word under the cursor (R150): `EROM_BASE + 4*CUR` on Flat,
`WINBASE[REG] + 4*CUR` on a windowed transport. -/
def State.streamPa (s : State) : Addr :=
  (if s.flat then zext64 s.scan.eromBase else s.winReg) + 4#64 * zext64 s.scan.cur

/-- Advance(), when the cursor is below its limit: read the word, move the cursor by one (R151). -/
def State.advance (s : State) : Word × State :=
  let r := s.memRead .plain s.streamPa
  (r.1, { r.2 with scan := { r.2.scan with cur := r.2.scan.cur + 1#32 } })

/-- The push back: the cursor goes back by exactly one word (R156). -/
def State.pushBack (s : State) : State := { s with scan := { s.scan with cur := s.scan.cur - 1#32 } }

/-- Wait for the next word at this control point. -/
def State.goTo (p : ScanPos) (s : State) : State := { s with scan := { s.scan with pos := p } }

/-! ## The checks of R197 -/

/-- StrictHigh: a non-zero high half is a ParseError, or a warning without `STRICT_ASD` (R208). -/
def State.strictHigh (ah sh : Word) (next : State → State) (s : State) : State :=
  if ah = 0#32 ∧ sh = 0#32 then next s
  else if s.params.strictAsd then s.parseFail .high
  else next (s.logEntry .warnHigh)

/-- WrapSize: a wrapper ASD has size `CORE_WINDOW_SIZE`, else a ParseError or a warning (R214). -/
def State.wrapSize (a : Asd) (c : ParseCause) (next : State → State) (s : State) : State :=
  if a.size = Config.coreWindowSize then next s
  else if s.params.strictAsd then s.parseFail c
  else next (s.logEntry .warnWrapSize)

/-! ## Steps 6 to 9, from the last to the first -/

/-- The row of the component just parsed (R220). -/
def State.newRow (s : State) : CoreDescriptor where
  coreIndex := BitVec.ofNat 32 s.scan.rows.length
  coreId := s.params.remappedId s.cfg.family (s.scan.cid.setWidth 16)
  rawRev := s.scan.rev
  primaryAddr := s.scan.pri.addr
  primarySize := s.scan.pri.size
  secondaryAddr := s.scan.sec.map Asd.addr
  secondarySize := s.scan.sec.map Asd.size
  wrapperAddr := s.scan.wrap

/-- `TABLE[N] <- row; N <- N + 1`, or ParseError when the table is full (R218, R220, R233). -/
def State.commitRow (d : CoreDescriptor) (next : State → State) (s : State) : State :=
  if s.scan.rows.length = s.params.maxCores then s.parseFail .tableFull
  else next { s with scan := { s.scan with rows := s.scan.rows ++ [d] } }

/-- Step 9: a bridge is discarded (R219), any other component becomes a row; then the next component. -/
def State.commit (s : State) : State :=
  if s.scan.br then s.goTo .identity
  else s.commitRow s.newRow (State.goTo .identity)

/-- Step 8, slave wrappers from number i on (R213). -/
def State.slaveWraps (i : Nat) (s : State) : State :=
  if i < s.scan.nsw.toNat then s.goTo (.asd (.slaveWrap i)) else s.commit

/-- Step 8, master wrappers from number i on (R212). -/
def State.masterWraps (i : Nat) (s : State) : State :=
  if i < s.scan.nmw.toNat then s.goTo (.asd (.masterWrap i)) else s.slaveWraps 0

/-- Step 7, slave ports from number i on, then step 8 with WRAP at NONE (R211). -/
def State.slavePorts (i : Nat) (s : State) : State :=
  if i < s.scan.nsp.toNat then s.goTo (.asd (.slavePort i 0))
  else State.masterWraps 0 { s with scan := { s.scan with wrap := none } }

/-- Record a wrapper address if it is the first, its high half checked unless the component is a bridge
(R215). -/
def State.recordWrap (a : Asd) (next : State → State) (s : State) : State :=
  match s.scan.wrap with
  | some _ => next s
  | none =>
    let t := { s with scan := { s.scan with wrap := some a.addr } }
    if s.scan.br then next t else t.strictHigh (highWord a.addr) 0 next

/-- Append a slave wrapper of a recognized bridge kind to the bridge set (R217). -/
def State.captureBridge (a : Asd) (next : State → State) (s : State) : State :=
  if s.params.bridgeKinds.contains (s.scan.mfg, s.scan.cid) then
    if s.bws.length = s.params.maxBridges then s.parseFail .bwsFull
    else next { s with bws := s.bws ++ [a.addr] }
  else next s

/-- The end of step 6: the secondary address space is the one further ASD of window size (R210). -/
def State.endExtras (extras : Nat) (first : Option Asd) (s : State) : State :=
  let sec := match first with
    | some a => if extras = 1 ∧ a.size = Config.coreWindowSize then some a else none
    | none => none
  let t := { s with scan := { s.scan with sec := sec } }
  match sec with
  | some a => if s.scan.br then t.slavePorts 1 else t.strictHigh (highWord a.addr) 0 (State.slavePorts 1)
  | none => t.slavePorts 1

/-! ## What a TryASD leads to -/

/-- TryASD returned the ASD `a` at this site. -/
def State.asdFound (site : AsdSite) (a : Asd) (s : State) : State :=
  match site with
  | .capture => State.goTo .identity { s with oob := some a.addr }
  | .primary =>
    State.strictHigh (highWord a.addr) (highWord a.size) (State.goTo (.asd (.extra 0 none)))
      { s with scan := { s.scan with pri := a } }
  | .bridgeFirst => State.goTo (.asd .bridgeMore) { s with scan := { s.scan with pri := a, br := true } }
  | .bridgeMore => s.goTo (.asd .bridgeMore)
  | .extra n first => s.goTo (.asd (.extra (n + 1) (if n = 0 then some a else first)))
  | .slavePort i j => s.goTo (.asd (.slavePort i (j + 1)))
  | .masterWrap i => s.wrapSize a (.mwSize i) (State.recordWrap a (State.masterWraps (i + 1)))
  | .slaveWrap i =>
    s.wrapSize a (.swSize i) (State.recordWrap a (State.captureBridge a (State.slaveWraps (i + 1))))

/-- TryASD returned NONE at this site. -/
def State.asdMissing (site : AsdSite) (s : State) : State :=
  match site with
  | .capture => s.goTo .identity
  | .primary => s.goTo (.asd .bridgeFirst)
  | .bridgeFirst => s.parseFail .firstAsd
  | .bridgeMore => s.goTo (.asd (.extra 0 none))
  | .extra n first => s.endExtras n first
  | .slavePort i j => if j = 0 then s.parseFail (.spEmpty i) else s.slavePorts (i + 1)
  | .masterWrap i => s.parseFail (.mwMissing i)
  | .slaveWrap i => s.parseFail (.swMissing i)

/-- The whole unit is read: TryASD returns it (R156, R158). -/
def State.unitDone (site : AsdSite) (addr size : Addr) (s : State) : State :=
  s.asdFound site
    { port := (site.wants s.scan.nsp).1, type := (site.wants s.scan.nsp).2, addr := addr, size := size }

/-- The address is read: the size comes from the size code, or from an SZD that follows (R107, R110). -/
def State.unitAddr (site : AsdSite) (addr : Addr) (sz : BitVec 2) (s : State) : State :=
  if sz = 3#2 then s.goTo (.szd site addr)
  else s.unitDone site addr (Config.coreWindowSize <<< sz.toNat)

/-- A valid word that is no ASD of the wanted port and type is pushed back: TryASD returns NONE (R156). -/
def State.reject (site : AsdSite) (s : State) : State := s.pushBack.asdMissing site

/-- An ASD head of type `st` at a TryASD: accepted if port and type are the wanted ones (R156). -/
def State.asdHead (st : AsdType) (addr : BitVec 20) (sp : BitVec 4) (sz : BitVec 2) (ag32 : BitVec 1)
    (site : AsdSite) (s : State) : State :=
  if (sp.toNat, st) = site.wants s.scan.nsp then
    if ag32 = 1#1 then s.goTo (.addrHi site (addr ++ 0#12) sz)
    else s.unitAddr site (hiLo 0 (addr ++ 0#12)) sz
  else s.reject site

/-! ## Words read by position (R155, R157) -/

/-- ADDR_HI: all 32 bits are address bits 63:32 (R109). -/
def State.takeAddrHi (site : AsdSite) (addrLo : Word) (sz : BitVec 2) (w : Word) (s : State) : State :=
  s.unitAddr site (hiLo w addrLo) sz

/-- SZD: size bits 31:12, and whether SIZE_HI follows (R110). -/
def State.takeSzd (site : AsdSite) (addr : Addr) (w : Word) (s : State) : State :=
  if field w 3 1 = 1#1 then s.goTo (.sizeHi site addr (w &&& 0xFFFFF000#32))
  else s.unitDone site addr (hiLo 0 (w &&& 0xFFFFF000#32))

/-- SIZE_HI: size bits 63:32 (R111). -/
def State.takeSizeHi (site : AsdSite) (addr : Addr) (sizeLo w : Word) (s : State) : State :=
  s.unitDone site addr (hiLo w sizeLo)

/-- Steps 2 and 3, the fields decoded: a bookkeeping kind or a component with no slave port is no row
(R201, R203, R204); any other goes on with its master ports (R205). -/
def State.classify (s : State) : State :=
  if s.params.skipKinds.contains (s.scan.mfg, s.scan.cid) then s.goTo .identity
  else if s.scan.nsp = 0#5 then
    if s.params.captureKinds.contains s.scan.cid then s.goTo (.asd .capture) else s.goTo .identity
  else if s.scan.nmp = 0#5 then State.goTo (.asd .primary) { s with scan := { s.scan with br := false } }
  else s.goTo (.mpd s.scan.nmp.toNat)

/-- The word after CIA: its TAG must be 000 (R199); then the fields of the pair are decoded (R200). -/
def State.takeCib (w : Word) (s : State) : State :=
  if field w 1 3 = 0#3 then
    State.classify { s with scan := { s.scan with
      cib := w
      mfg := field s.scan.cia 20 12
      cid := field s.scan.cia 8 12
      ccl := field s.scan.cia 4 4
      rev := field w 24 8
      nsw := field w 19 5
      nmw := field w 14 5
      nsp := field w 9 5
      nmp := field w 4 5 } }
  else s.parseFail .badCib

/-- One master-port descriptor is read, `left` were to be read (R205). -/
def State.takeMpd (left : Nat) (s : State) : State :=
  if left ≤ 1 then State.goTo (.asd .primary) { s with scan := { s.scan with br := false } }
  else s.goTo (.mpd (left - 1))

/-! ## The start of a SCAN -/

/-- The prologue: the old table is discarded before the first read (R195); BUSY is set (R57). -/
def State.scanPrologue (s : State) : State :=
  { s with table := [], bws := [], oob := none, focus := Focus.unset, mapReg := [], mapWrap := []
           busy := true, scan := { s.scan with cur := 0, rows := [] } }

/-- `CUR <- 0; LIM <- EROM_LIMIT_WORDS; N <- 0` and the identity search (R197), the stream being at `p`. -/
def State.openStream (p : Word) (s : State) : State :=
  { s with scan := { s.scan with
      eromBase := p, cur := 0, lim := Config.eromLimitWords, rows := [], pos := .identity } }

/-- Locating the stream: the enumeration pointer, its alignment, the way to the stream (R196). -/
def State.locateStream (s : State) : State :=
  if s.flat then
    let r := (s.map Config.bootCoreBase Config.coreWindowSize).memRead .plain
      (Config.bootCoreBase + Config.eromPtrOffset)
    if field r.1 0 2 = 0#2 then
      (r.2.map (zext64 r.1) (4#64 * zext64 Config.eromLimitWords)).openStream r.1
    else r.2.parseFail .eromPtr
  else
    let t := s.winSet .reg Config.bootCoreBase
    let r := t.memRead .plain (t.winReg + Config.eromPtrOffset)
    if field r.1 0 2 = 0#2 then (r.2.winSet .reg (zext64 r.1)).openStream r.1
    else r.2.parseFail .eromPtr

end Sys2Proof.Machine
end

