-- ==== Sys2Proof/Machine/Descriptor.lean ====
section
/-! DEFINITION. The meanings of the descriptor words: what a word does at each position of the reader
(30_encoding.md R101, 40_stream_reader.md, 41_topology_scan.md R197 to R220). The word has been read and the
cursor moved past it. -/

namespace Sys2Proof.Machine

/-- A word of a tagged kind: `onIdentity` at the identity search, `onMpd` where a master-port descriptor is
read, `onAsd` at a TryASD. At a position read without a tag it is data, whatever its kind (R113, R157), and
at the CIB position its TAG decides (R199). -/
def taggedWord (w : Word) (onIdentity : State → State) (onMpd : Nat → State → State)
    (onAsd : AsdSite → State → State) (s : State) : Host.Outcome State Fault Refusal :=
  if s.busy then
    .next (match s.scan.pos with
      | .identity => onIdentity s
      | .cib => s.takeCib w
      | .mpd left => onMpd left s
      | .asd site => onAsd site s
      | .addrHi site lo sz => s.takeAddrHi site lo sz w
      | .szd site addr => s.takeSzd site addr w
      | .sizeHi site addr lo => s.takeSizeHi site addr lo w)
  else .refused .noScanInProgress

/-- A word of a kind read by position: data there; no tagged position makes such a word (log 21). -/
def positionalWord (w : Word) (s : State) : Host.Outcome State Fault Refusal :=
  if s.busy then
    match s.scan.pos with
    | .identity => .fault .notAtItsPosition
    | .mpd _ => .fault .notAtItsPosition
    | .asd _ => .fault .notAtItsPosition
    | .cib => .next (s.takeCib w)
    | .addrHi site lo sz => .next (s.takeAddrHi site lo sz w)
    | .szd site addr => .next (s.takeSzd site addr w)
    | .sizeHi site addr lo => .next (s.takeSizeHi site addr lo w)
  else .refused .noScanInProgress

/-- A valid word where a master-port descriptor must stand (R154). -/
def State.notMpd (_ : Nat) (s : State) : State := s.parseFail .badMpd

/-- A word the identity search or a tagged read passes over (R152, R153). -/
def State.skip (s : State) : State := s

/-- CIA: opens a component at the identity position (R102, R153); the CIB is read next (R155). -/
def execCia (mfg cid : BitVec 12) (ccl : BitVec 4) (s : State) : Host.Outcome State Fault Refusal :=
  taggedWord (ciaWord mfg cid ccl)
    (fun t => State.goTo .cib { t with scan := { t.scan with cia := ciaWord mfg cid ccl } })
    State.notMpd State.reject s

/-- CIB, read by position after CIA (R103, R155, R199, R200). -/
def execCib (rev : BitVec 8) (nsw nmw nsp nmp : BitVec 5) (valid : BitVec 1) (s : State) :
    Host.Outcome State Fault Refusal :=
  positionalWord (cibWord rev nsw nmw nsp nmp valid) s

/-- MPD: accepted where one is to be read, its contents discarded (R104, R154, R205). -/
def execMpd (rsv : BitVec 16) (mui : BitVec 8) (mp : BitVec 4) (s : State) :
    Host.Outcome State Fault Refusal :=
  taggedWord (mpdWord rsv mui mp) State.skip State.takeMpd State.reject s

/-- ASD.slave (R105, R156). -/
def execAsdSlave (addr : BitVec 20) (sp : BitVec 4) (sz : BitVec 2) (ag32 : BitVec 1) (s : State) :
    Host.Outcome State Fault Refusal :=
  taggedWord (asdWord 0 addr sp sz ag32) State.skip State.notMpd
    (State.asdHead .slave addr sp sz ag32) s

/-- ASD.bridge (R105, R156). -/
def execAsdBridge (addr : BitVec 20) (sp : BitVec 4) (sz : BitVec 2) (ag32 : BitVec 1) (s : State) :
    Host.Outcome State Fault Refusal :=
  taggedWord (asdWord 1 addr sp sz ag32) State.skip State.notMpd
    (State.asdHead .bridge addr sp sz ag32) s

/-- ASD.swrap (R105, R156). -/
def execAsdSwrap (addr : BitVec 20) (sp : BitVec 4) (sz : BitVec 2) (ag32 : BitVec 1) (s : State) :
    Host.Outcome State Fault Refusal :=
  taggedWord (asdWord 2 addr sp sz ag32) State.skip State.notMpd
    (State.asdHead .swrap addr sp sz ag32) s

/-- ASD.mwrap (R105, R156). -/
def execAsdMwrap (addr : BitVec 20) (sp : BitVec 4) (sz : BitVec 2) (ag32 : BitVec 1) (s : State) :
    Host.Outcome State Fault Refusal :=
  taggedWord (asdWord 3 addr sp sz ag32) State.skip State.notMpd
    (State.asdHead .mwrap addr sp sz ag32) s

/-- ADDR_HI, read by position (R109, R157). -/
def execAddrHi (w : Word) (s : State) : Host.Outcome State Fault Refusal := positionalWord w s

/-- SZD, read by position (R110, R157). -/
def execSzd (size : BitVec 20) (ignHi : BitVec 8) (sg32 : BitVec 1) (ignLo : BitVec 3) (s : State) :
    Host.Outcome State Fault Refusal :=
  positionalWord (szdWord size ignHi sg32 ignLo) s

/-- SIZE_HI, read by position (R111, R157). -/
def execSizeHi (w : Word) (s : State) : Host.Outcome State Fault Refusal := positionalWord w s

/-- END, the all-ones word: ends the scan at the identity position (R112, R198). -/
def execEndOnes (s : State) : Host.Outcome State Fault Refusal :=
  taggedWord 0xFFFFFFFF#32 State.scanDone State.notMpd State.reject s

/-- END.rom, 0x0000000F: ends the scan at the identity position (R112, R198). -/
def execEndRom (s : State) : Host.Outcome State Fault Refusal :=
  taggedWord 0x0000000F#32 State.scanDone State.notMpd State.reject s

/-- INVALID: skipped by every tagged read, which goes on to the next word (R113, R152). -/
def execInvalid (rest : BitVec 31) (s : State) : Host.Outcome State Fault Refusal :=
  taggedWord (invalidWord rest) State.skip (fun _ => State.skip) (fun _ => State.skip) s

/-- RESERVED.tag011 (R101, I1). -/
def execReserved011 (rest : BitVec 28) (s : State) : Host.Outcome State Fault Refusal :=
  taggedWord (reservedWord 3 rest) State.skip State.notMpd State.reject s

/-- RESERVED.tag100 (R101, I1). -/
def execReserved100 (rest : BitVec 28) (s : State) : Host.Outcome State Fault Refusal :=
  taggedWord (reservedWord 4 rest) State.skip State.notMpd State.reject s

/-- RESERVED.tag101 (R101, I1). -/
def execReserved101 (rest : BitVec 28) (s : State) : Host.Outcome State Fault Refusal :=
  taggedWord (reservedWord 5 rest) State.skip State.notMpd State.reject s

/-- RESERVED.tag111, not an END word (R101, R112, I1). -/
def execReserved111 (rest : BitVec 28) (s : State) : Host.Outcome State Fault Refusal :=
  taggedWord (reservedWord 7 rest) State.skip State.notMpd State.reject s

end Sys2Proof.Machine
end

