-- ==== Sys2Proof/Machine/Lifecycle.lean ====
section
/-! DEFINITION. The core lifecycle (45_lifecycle.md): the bounded waits, the wrapper prologue, and DISABLE,
RESET, IS_UP, CFLAGS, SFLAGS. -/

namespace Sys2Proof.Machine

/-! ## Wrapper accesses and waits -/

/-- `MemRead(W(x), 4)` (R341). -/
def State.wrapRead (wb x : Addr) (s : State) : Word × State := s.memRead .plain (s.wrapperPa wb x)

/-- `MemWrite(W(x), 4, v)` (R341). -/
def State.wrapWrite (wb x : Addr) (v : Word) (s : State) : State := s.memWrite .plain (s.wrapperPa wb x) v

/-- WaitPending (R340): at most `maxPolls` reads, but one even if `maxPolls` is 0 (log 23), a delay between
two; whether the pending-ops field read zero. -/
def State.waitPending (wb : Addr) : Nat → State → Bool × State
  | 0, s => ((s.wrapRead wb Config.resetStatus).1 == 0#32, (s.wrapRead wb Config.resetStatus).2)
  | k + 1, s =>
    let r := s.wrapRead wb Config.resetStatus
    if r.1 = 0#32 then (true, r.2)
    else if k = 0 then (false, r.2)
    else State.waitPending wb k (r.2.delay r.2.params.pollPeriodUs)

/-- ShortWait (R344): a timeout is logged and tolerated. -/
def State.shortWait (wb : Addr) (s : State) : State :=
  let r := s.waitPending wb s.params.shortPolls
  if r.1 then r.2 else r.2.logEntry (.timeoutTolerated .pendingOps wb)

/-- TwoTierWait (R342): the short bound, then the long one with a fresh count. -/
def State.twoTierWait (wb : Addr) (s : State) : State :=
  let r := s.waitPending wb s.params.shortPolls
  if r.1 then r.2
  else
    let q := r.2.waitPending wb r.2.params.longPolls
    if q.1 then q.2 else q.2.logEntry (.timeoutTolerated .pendingOps wb)

/-! ## The wrapper prologue and epilogue (R341) -/

/-- The range checks (a) to (c) of R341: the row and the wrapper of a core whose wrapper can be reached. -/
def State.usableWrapper (s : State) (i : Word) : Option (CoreDescriptor × Addr) :=
  match s.row i with
  | none => none
  | some d =>
    match d.wrapperAddr with
    | none => none
    | some wb => if !s.flat && s.cfg.windowCount == 1 then none else some (d, wb)

/-- The rest of WithWrapper (R341): on Flat the wrapper is mapped and the focus left alone; on a windowed
transport `body` runs inside the critical section of R290. -/
def State.withWrapper {α : Type} (i : Word) (wb : Addr) (body : State → α × State) (s : State) :
    α × State :=
  if s.flat then body (s.mapWrapper i wb) else s.withFocus i body

/-- A lifecycle command whose response is a status alone, `run` being all it does to a core whose wrapper can
be reached. -/
def lifecycleCommand (i : Word) (run : Addr → State → Unit × State) (s : State) :
    Host.Outcome State Fault Refusal :=
  command (fun t => match t.usableWrapper i with
    | none => (answerStatus .rangeError, t)
    | some (_, wb) => (answerStatus .ok, (run wb t).2)) s

/-! ## The lifecycle state of a core (R58) -/

/-- The wrapper of core i, if it is a row and has one. -/
def State.wrapperOf (s : State) (i : Word) : Option Addr := (s.row i).bind CoreDescriptor.wrapperAddr

/-- The lifecycle state of core i: the function R58 gives of a RESET in progress and of what its `RESETCTRL` and
`IOCTRL` read. A core with no wrapper has neither register and is Unknown (log 29). -/
def State.lifecycle (s : State) (i : Word) : Lifecycle :=
  match s.wrapperOf i with
  | none => .unknown
  | some wb => lifecycleOf (s.resetting == some i) (s.busAnswer (wb + Config.resetCtrl))
      (s.busAnswer (wb + Config.ioCtrl))

/-- Whether the block has read a lifecycle register of the wrapper at `wb` since ATTACH. -/
def State.hasReadWrapper (s : State) (wb : Addr) : Bool :=
  (s.trace.drop s.attachMark).any (fun e => match e with
    | .memRead _ pa _ => pa == wb + Config.resetCtrl || pa == wb + Config.ioCtrl
    | .memWrite _ _ _ | .winSet _ _ | .map _ _ | .delay _ | .irqMask _ | .irqRestore _ => false)

/-- The lifecycle state of core i as the block knows it: every core starts Unknown, "because the block has read
none of its registers" (R58, R470; log 29). -/
def State.knownLifecycle (s : State) (i : Word) : Lifecycle :=
  match s.wrapperOf i with
  | none => .unknown
  | some wb => if s.resetting == some i || s.hasReadWrapper wb then s.lifecycle i else .unknown

/-! ## DISABLE (R343) -/

/-- DisableBody (R343). -/
def disableBody (ioBits : Word) (wb : Addr) (s : State) : Unit × State :=
  let r := s.wrapRead wb Config.resetCtrl
  if field r.1 0 1 = 1#1 then ((), r.2)
  else
    let s1 := (r.2.twoTierWait wb).wrapWrite wb Config.resetCtrl 1#32
    let s2 := (s1.wrapRead wb Config.resetCtrl).2.delay s1.params.dlyDisReset
    let s3 := s2.wrapWrite wb Config.ioCtrl ioBits
    ((), (s3.wrapRead wb Config.ioCtrl).2.delay s3.params.dlyDisIo)

/-- DISABLE. -/
def execDisable (i ioBits : Word) (s : State) : Host.Outcome State Fault Refusal :=
  lifecycleCommand i (fun wb t => t.withWrapper i wb (disableBody ioBits wb)) s

/-! ## RESET (R345) -/

/-- The reset self-clear loop (R346): whether `RESETCTRL` read zero within the retries. -/
def State.clearReset (wb : Addr) : Nat → State → Bool × State
  | 0, s => (false, s)
  | k + 1, s =>
    let r := ((s.shortWait wb).wrapWrite wb Config.resetCtrl 0#32).wrapRead wb Config.resetCtrl
    if r.1 = 0#32 then (true, r.2) else State.clearReset wb k r.2

/-- ResetBody (R345). -/
def resetBody (ioBits resetOnlyBits : Word) (wb : Addr) (s : State) : Unit × State :=
  let s1 := (s.twoTierWait wb).wrapWrite wb Config.resetCtrl 1#32
  let s2 := (s1.delay s1.params.dlyRstAssert).shortWait wb
  let s3 := s2.wrapWrite wb Config.ioCtrl (ioBits ||| resetOnlyBits ||| Config.forceClock ||| Config.clockEn)
  let s4 := s3.shortWait wb
  let r := s4.clearReset wb s4.params.resetRetries
  let s5 := if r.1 then r.2 else r.2.logEntry (.timeoutTolerated .resetStuck wb)
  let s6 := s5.wrapWrite wb Config.ioCtrl (ioBits ||| Config.clockEn)
  ((), (s6.wrapRead wb Config.ioCtrl).2.delay s6.params.dlyRstFinal)

/-- `body` run as the RESET of core i, which is Resetting from its first event to its last (R58). -/
def State.whileResetting {α : Type} (i : Word) (body : State → α × State) (s : State) : α × State :=
  let r := body { s with resetting := some i }
  (r.1, { r.2 with resetting := s.resetting })

/-- RESET. -/
def execReset (i ioBits resetOnlyBits : Word) (s : State) : Host.Outcome State Fault Refusal :=
  lifecycleCommand i
    (fun wb t => t.whileResetting i (fun u => u.withWrapper i wb (resetBody ioBits resetOnlyBits wb))) s

/-! ## IS_UP (R352) -/

/-- IsUpBody (R352): the clock test first, `RESETCTRL` only if it holds. -/
def isUpBody (wb : Addr) (s : State) : Word × State :=
  let v := s.wrapRead wb Config.ioCtrl
  if v.1 &&& (Config.forceClock ||| Config.clockEn) = Config.clockEn then
    let r := v.2.wrapRead wb Config.resetCtrl
    (if field r.1 0 1 = 0#1 then 1#32 else 0#32, r.2)
  else (0#32, v.2)

/-- IS_UP. -/
def execIsUp (i : Word) (s : State) : Host.Outcome State Fault Refusal :=
  command (fun t => match t.usableWrapper i with
    | none => (answer32 0 .rangeError, t)
    | some (_, wb) =>
      (answer32 (t.withWrapper i wb (isUpBody wb)).1 .ok, (t.withWrapper i wb (isUpBody wb)).2)) s

/-! ## CFLAGS and SFLAGS (R354 to R356) -/

/-- CflagsBody on wrapper register `x` (R355, R356). -/
def flagsBody (x : Addr) (mask value : Word) (wb : Addr) (s : State) : Word × State :=
  s.rmw .plain (s.wrapperPa wb x) mask value

/-- A guarded masked operation on wrapper register `x`: the range checks, then the family guard, which
refuses before any event (R354), then the body. -/
def flagsCommand (x : Addr) (i mask value : Word) (s : State) : Host.Outcome State Fault Refusal :=
  command (fun t => match t.usableWrapper i with
    | none => (answer32 0 .rangeError, t)
    | some (d, wb) =>
      if t.params.guarded t.cfg.family d.coreId then
        (answer32 0 .guardRefusal, t.logEntry (.guardRefusal i))
      else
        (answer32 (t.withWrapper i wb (flagsBody x mask value wb)).1 .ok,
          (t.withWrapper i wb (flagsBody x mask value wb)).2)) s

/-- CFLAGS, on `IOCTRL` (R355). -/
def execCflags (i mask value : Word) (s : State) : Host.Outcome State Fault Refusal :=
  flagsCommand Config.ioCtrl i mask value s

/-- SFLAGS, on `IOSTATUS` (R356). -/
def execSflags (i mask value : Word) (s : State) : Host.Outcome State Fault Refusal :=
  flagsCommand Config.ioStatus i mask value s

end Sys2Proof.Machine
end

