-- ==== Sys2Proof/Machine/Query.lean ====
section
/-! DEFINITION. The queries of 42_core_table.md: no event, no state written. -/

namespace Sys2Proof.Machine

/-- CORE_COUNT (R250): the count, the code of the scan status, the cause word, and the status. -/
def execCoreCount (s : State) : Host.Outcome State Fault Refusal :=
  command (fun t => ([t.count, t.scanStatus.code, t.scanStatus.causeWord, Status.ok.code], t)) s

/-- CORE_ID (R251). -/
def execCoreId (i : Word) (s : State) : Host.Outcome State Fault Refusal :=
  command (fun t => (match t.row i with
    | some d => answer32 (d.coreId.setWidth 32) .ok
    | none => answer32 0 .rangeError, t)) s

/-- CORE_REV (R252): remapped at query time. -/
def execCoreRev (i : Word) (s : State) : Host.Outcome State Fault Refusal :=
  command (fun t => (match t.row i with
    | some d => answer32 (t.params.remappedRev t.cfg.family d.coreId d.rawRev) .ok
    | none => answer32 0 .rangeError, t)) s

/-- CORE_PRIMARY_ADDR (R253). -/
def execCorePrimaryAddr (i : Word) (s : State) : Host.Outcome State Fault Refusal :=
  command (fun t => (match t.row i with
    | some d => answer64 d.primaryAddr .ok
    | none => answer64 0 .rangeError, t)) s

/-- CORE_PRIMARY_SIZE (R254). -/
def execCorePrimarySize (i : Word) (s : State) : Host.Outcome State Fault Refusal :=
  command (fun t => (match t.row i with
    | some d => answer64 d.primarySize .ok
    | none => answer64 0 .rangeError, t)) s

/-- CORE_SECONDARY_ADDR (R255). -/
def execCoreSecondaryAddr (i : Word) (s : State) : Host.Outcome State Fault Refusal :=
  command (fun t => (match t.row i with
    | some d => answerOpt64 d.secondaryAddr .ok
    | none => answerOpt64 none .rangeError, t)) s

/-- CORE_SECONDARY_SIZE (R256). -/
def execCoreSecondarySize (i : Word) (s : State) : Host.Outcome State Fault Refusal :=
  command (fun t => (match t.row i with
    | some d => answerOpt64 d.secondarySize .ok
    | none => answerOpt64 none .rangeError, t)) s

/-- CORE_WRAPPER_ADDR (R257). -/
def execCoreWrapperAddr (i : Word) (s : State) : Host.Outcome State Fault Refusal :=
  command (fun t => (match t.row i with
    | some d => answerOpt64 d.wrapperAddr .ok
    | none => answerOpt64 none .rangeError, t)) s

/-- OOB_ROUTER_ADDR (R258). -/
def execOobRouterAddr (s : State) : Host.Outcome State Fault Refusal :=
  command (fun t => (answerOpt64 t.oob .ok, t)) s

end Sys2Proof.Machine
end

