-- ==== Sys2Proof/Machine/Legacy.lean ====
section
/-! DEFINITION. SCAN on the legacy bus (41_topology_scan.md R230 to R236), over the parameter functions the
spec leaves open (D42; log 8, log 18). -/

namespace Sys2Proof.Machine

/-- What a part of the walk ends with: a ParseError's cause, or a value. -/
abbrev Walked (α : Type) := Except ParseCause α × State

/-- On a windowed transport REG at the base of a page, programmed if it is elsewhere or if `again` asks for it;
on Flat nothing (R79, R80; log 18). -/
def State.selectPage (base : Addr) (again : Bool) (s : State) : State :=
  if s.flat || (s.winReg == base && !again) then s else s.winSet .reg base

/-- Where a word of the selected page is reached: `base + off` on Flat, `WINBASE[REG] + off` otherwise. -/
def State.pagePa (base : Addr) (word : BitVec 10) (s : State) : Addr :=
  (if s.flat then base else s.winReg) + windowOffset word

/-- A run of the parameter procedure `legacyIdentify` on a slot (R232): its primitives are part of the trace. -/
def SlotProc.run (slot : Addr) : SlotProc → State → Walked LegacyIdent
  | .done id, s => (.ok id, s)
  | .raise c, s => (.error c, s)
  | .read again page word next, s =>
    let t := s.selectPage (slot + pageBase page) again
    let r := t.memRead .plain (t.pagePa (slot + pageBase page) word)
    (next r.1).run slot r.2
  | .map base size next, s => next.run slot (s.map base size)

/-- The row of a legacy core: no secondary space and no wrapper (R233, R234). -/
def State.legacyRow (s : State) (base : Addr) (id : LegacyIdent) : CoreDescriptor where
  coreIndex := BitVec.ofNat 32 s.scan.rows.length
  coreId := s.params.remappedId s.cfg.family id.coreId
  rawRev := id.rev
  primaryAddr := base
  primarySize := Config.legacySlotSize
  secondaryAddr := none
  secondarySize := none
  wrapperAddr := none

/-- The slots of one bus (R233): `onSub` is what is done at a sub-bus bridge, which is never a row. -/
def walkSlots (onSub : LegacyIdent → State → Walked Unit) : Nat → Addr → State → Walked Unit
  | 0, _, s => (.ok (), s)
  | k + 1, base, s =>
    let r := (Config.legacyIdentify base).run base s
    match r.1 with
    | .error c => (.error c, r.2)
    | .ok id =>
      if id.isSub then
        match (onSub id r.2).1 with
        | .error c => (.error c, (onSub id r.2).2)
        | .ok () => walkSlots onSub k (base + Config.legacySlotSize) (onSub id r.2).2
      else if r.2.scan.rows.length = r.2.params.maxCores then (.error .tableFull, r.2)
      else
        walkSlots onSub k (base + Config.legacySlotSize)
          { r.2 with scan := { r.2.scan with rows := r.2.scan.rows ++ [r.2.legacyRow base id] } }

/-- The walk of a sub-bus, at depth 2: a further sub-bus bridge is not followed (R233). -/
def walkSubBus (id : LegacyIdent) (s : State) : Walked Unit :=
  walkSlots (fun _ t => (.ok (), t)) id.subCount.toNat (wordAddr id.subBase) s

/-- The core count: from the bootstrap core's identity register where it has the field, else from the
family's table (R231). -/
def legacyCount (family : Family) (w : Word) : Word :=
  if Config.legacyHasCount family w then Config.legacyCountField w else Config.legacyCountTable family

/-- SCAN on the legacy bus, after the prologue: the count, the walk of the main bus, and the epilogue of R222
or R221 (R231, R233, R235). -/
def State.legacyScan (s : State) : State :=
  let t := s.selectPage Config.legacyBase true
  let r := t.memRead .plain (t.pagePa Config.legacyBase Config.legacyIdWord)
  let e := walkSlots walkSubBus (legacyCount s.cfg.family r.1).toNat Config.legacyBase r.2
  match e.1 with
  | .ok () => e.2.scanDone
  | .error c => e.2.parseFail c

end Sys2Proof.Machine
end

