-- ==== Sys2Proof/Machine/Session.lean ====
section
/-! DEFINITION. ATTACH, DETACH and SCAN (41_topology_scan.md R190 to R196, R230; 70_reset_and_hazards.md R470,
R474). -/

namespace Sys2Proof.Machine

/-- Every register of the block at its value after ATTACH (R60, R470): the configuration latched, the rest
cleared. The bus, the windows, the trace, the commands and the parameters are not the block's to reset. -/
def State.attachReset (cfg : Cfg) (s : State) : State :=
  { s with attached := true, busy := false, cfg := cfg, table := [], bws := [], oob := none
           focus := Focus.unset, mapReg := [], mapWrap := [], scanStatus := .never
           scan := ScanRegs.unset, resetting := none, irqSaved := none, attachMark := s.trace.length
           log := [] }

/-- ATTACH, the block's reset (R190): no bus access; RangeError changes nothing; refused while attached. -/
def execAttach (transport busGen windowCount chipId chipRev package fastCount : Word)
    (fast : List (Word × Word)) (s : State) : Host.Outcome State Fault Refusal :=
  if s.busy then .refused .commandWhileBusy
  else if s.attached then .refused .alreadyAttached
  else .next (match attachCfg transport busGen windowCount chipId chipRev package fastCount fast with
    | some cfg => (s.begin.attachReset cfg).respond (answerStatus .ok)
    | none => s.begin.respond (answerStatus .rangeError))

/-- DETACH's effect (R192): the table, the sets, the focus, the caches and the status are cleared. -/
def State.detached (s : State) : State :=
  { s with attached := false, table := [], bws := [], oob := none, focus := Focus.unset
           mapReg := [], mapWrap := [], scanStatus := .never }

/-- DETACH (R192). -/
def execDetach (s : State) : Host.Outcome State Fault Refusal :=
  command (fun t => (answerStatus .ok, t.detached)) s

/-- What SCAN does in its own step: the prologue (R195), then on an Advanced bus it locates the stream and
leaves the parse to the following steps (R196, log 2), and on a Legacy bus it walks the slots (R230). -/
def State.scanStart (s : State) : State :=
  match s.cfg.busGen with
  | .advanced => s.scanPrologue.locateStream
  | .legacy => s.scanPrologue.legacyScan

/-- SCAN (R194). Its response is given when the scan ends. -/
def execScan (s : State) : Host.Outcome State Fault Refusal :=
  if s.busy then .refused .commandWhileBusy
  else if s.attached then .next s.begin.scanStart
  else .refused .detached

end Sys2Proof.Machine
end

