-- ==== Sys2Proof/Machine/Timeout.lean ====
section
/-! DEFINITION. The backplane timeout monitor (46_timeout_monitor.md): ARM_TIMEOUTS and CLEAR_TIMEOUT, on Flat
only (R390), each bridge mapped at every command. -/

namespace Sys2Proof.Machine

/-- Arm one bridge (R391). -/
def State.armBridge (b : Addr) (s : State) : State :=
  (s.map b Config.coreWindowSize).memWrite .plain (b + Config.errLogCtrl)
    (errLogCtrlValue s.params.timeoutExp)

/-- Arm every bridge, in BWS order. -/
def State.armBridges : List Addr → State → State
  | [], s => s
  | b :: rest, s => State.armBridges rest (s.armBridge b)

/-- ARM_TIMEOUTS (R391). -/
def execArmTimeouts (s : State) : Host.Outcome State Fault Refusal :=
  command (fun t =>
    if t.flat then (answerStatus .ok, t.armBridges t.bws) else (answerStatus .rangeError, t)) s

/-- The acknowledgement wait (R394): at most this many reads, no delay; whether `STATUS` read 0. -/
def State.waitAck (b : Addr) : Nat → State → Bool × State
  | 0, s => (false, s)
  | k + 1, s =>
    let r := s.memRead .plain (b + Config.errLogStatus)
    if field r.1 0 2 = 0#2 then (true, r.2) else State.waitAck b k r.2

/-- The reset pulse: assert, read back, deassert, read back (R393, D64). -/
def State.pulse (b : Addr) (s : State) : State :=
  let s1 := ((s.memWrite .plain (b + Config.resetCtrl) 1#32).memRead .plain (b + Config.resetCtrl)).2
  ((s1.memWrite .plain (b + Config.resetCtrl) 0#32).memRead .plain (b + Config.resetCtrl)).2

/-- One bridge of CLEAR_TIMEOUT (R392, R393, R395): whether it is left in error. -/
def State.clearBridge (b : Addr) (s : State) : Bool × State :=
  let r := (s.map b Config.coreWindowSize).memRead .plain (b + Config.errLogStatus)
  if field r.1 0 2 = 2#2 then
    let a := (r.2.memWrite .plain (b + Config.errLogDone) 3#32).waitAck b r.2.params.ackPolls
    if a.1 then (false, a.2.pulse b) else (true, a.2.logEntry (.timeoutFatal b))
  else (false, r.2)

/-- Every bridge, in BWS order; whether any is left in error (R396). -/
def State.clearBridges : List Addr → State → Bool × State
  | [], s => (false, s)
  | b :: rest, s =>
    let r := s.clearBridge b
    let q := State.clearBridges rest r.2
    (r.1 || q.1, q.2)

/-- CLEAR_TIMEOUT (R393, R396). -/
def execClearTimeout (s : State) : Host.Outcome State Fault Refusal :=
  command (fun t =>
    if t.flat then
      (if (t.clearBridges t.bws).1 then answer32 1 .timeoutFatal else answer32 0 .ok,
        (t.clearBridges t.bws).2)
    else (answer32 0 .rangeError, t)) s

end Sys2Proof.Machine
end

