-- ==== Sys2Proof/Machine/Dispatch.lean ====
section
/-! DEFINITION. Which meaning each instruction has: one arm per constructor of `Instr`. -/

namespace Sys2Proof.Machine

def exec (i : Instr) (s : State) : Host.Outcome State Fault Refusal :=
  match i with
  | .cia mfg cid ccl => Sys2Proof.Machine.execCia mfg cid ccl s
  | .cib rev nsw nmw nsp nmp valid => Sys2Proof.Machine.execCib rev nsw nmw nsp nmp valid s
  | .mpd rsv mui mp => Sys2Proof.Machine.execMpd rsv mui mp s
  | .asdSlave addr sp sz ag32 => Sys2Proof.Machine.execAsdSlave addr sp sz ag32 s
  | .asdBridge addr sp sz ag32 => Sys2Proof.Machine.execAsdBridge addr sp sz ag32 s
  | .asdSwrap addr sp sz ag32 => Sys2Proof.Machine.execAsdSwrap addr sp sz ag32 s
  | .asdMwrap addr sp sz ag32 => Sys2Proof.Machine.execAsdMwrap addr sp sz ag32 s
  | .addrHi w => Sys2Proof.Machine.execAddrHi w s
  | .szd size ignHi sg32 ignLo => Sys2Proof.Machine.execSzd size ignHi sg32 ignLo s
  | .sizeHi w => Sys2Proof.Machine.execSizeHi w s
  | .endOnes => Sys2Proof.Machine.execEndOnes s
  | .endRom => Sys2Proof.Machine.execEndRom s
  | .invalid rest => Sys2Proof.Machine.execInvalid rest s
  | .reserved011 rest => Sys2Proof.Machine.execReserved011 rest s
  | .reserved100 rest => Sys2Proof.Machine.execReserved100 rest s
  | .reserved101 rest => Sys2Proof.Machine.execReserved101 rest s
  | .reserved111 rest => Sys2Proof.Machine.execReserved111 rest s
  | .attach transport busGen windowCount chipId chipRev package fastCount fast => Sys2Proof.Machine.execAttach transport busGen windowCount chipId chipRev package fastCount fast s
  | .detach => Sys2Proof.Machine.execDetach s
  | .scan => Sys2Proof.Machine.execScan s
  | .coreCount => Sys2Proof.Machine.execCoreCount s
  | .coreId index => Sys2Proof.Machine.execCoreId index s
  | .coreRev index => Sys2Proof.Machine.execCoreRev index s
  | .corePrimaryAddr index => Sys2Proof.Machine.execCorePrimaryAddr index s
  | .corePrimarySize index => Sys2Proof.Machine.execCorePrimarySize index s
  | .coreSecondaryAddr index => Sys2Proof.Machine.execCoreSecondaryAddr index s
  | .coreSecondarySize index => Sys2Proof.Machine.execCoreSecondarySize index s
  | .coreWrapperAddr index => Sys2Proof.Machine.execCoreWrapperAddr index s
  | .oobRouterAddr => Sys2Proof.Machine.execOobRouterAddr s
  | .switchTo index => Sys2Proof.Machine.execSwitchTo index s
  | .currentFocus => Sys2Proof.Machine.execCurrentFocus s
  | .accessRegister index offset mask value => Sys2Proof.Machine.execAccessRegister index offset mask value s
  | .disable index ioBits => Sys2Proof.Machine.execDisable index ioBits s
  | .reset index ioBits resetOnlyBits => Sys2Proof.Machine.execReset index ioBits resetOnlyBits s
  | .isUp index => Sys2Proof.Machine.execIsUp index s
  | .cflags index mask value => Sys2Proof.Machine.execCflags index mask value s
  | .sflags index mask value => Sys2Proof.Machine.execSflags index mask value s
  | .armTimeouts => Sys2Proof.Machine.execArmTimeouts s
  | .clearTimeout => Sys2Proof.Machine.execClearTimeout s

end Sys2Proof.Machine
end

