-- ==== Sys2Proof/Machine/Fetch.lean ====
section
/-! DEFINITION. What the block does next: with a SCAN in progress it reads the next stream word (40_stream_reader.md
R151), else it reads the next command the host has issued (30_encoding.md R116). Log 1, log 2. -/

namespace Sys2Proof.Machine

/-- What the block finds to do. -/
inductive Fetched where
  /-- an instruction, and the state with its words read -/
  | run (i : Instr) (s : State)
  /-- nothing to decode: the state after this step -/
  | settled (s : State)
  /-- words that are no command (R119) -/
  | rejected (r : Refusal)

/-- The next stream word: PE_NO_END at the limit (R151), else the word, decoded by its position. -/
def fetchStream (s : State) : Fetched :=
  if s.scan.lim ≤ s.scan.cur then .settled (s.parseFail .noEnd)
  else .run (decodeStream s.scan.pos.position s.advance.1) s.advance.2

/-- The next command. With none issued, or one not issued whole, the block waits (R471, R439). -/
def fetchCommand (s : State) : Fetched :=
  match decodeCommand s.commands with
  | .idle => .settled s
  | .incomplete => .settled s
  | .reservedBits => .rejected .reservedHeaderBits
  | .unassigned opc => .rejected (.unassignedOpcode opc)
  | .command i rest => .run i { s with commands := rest }

/-- The next thing to do. -/
def fetch (s : State) : Fetched := if s.busy then fetchStream s else fetchCommand s

/-- A block ready for a command on its port: not busy, and attached, with the configuration of the example of
R190, if the command is one that a detached block refuses (log 22). -/
def State.readyForCommand (i : Instr) (s : State) : State :=
  match i with
  | .attach .. => { s with busy := false, attached := false }
  | _ => { s with busy := false, attached := true }

/-- The control point at which a descriptor word is read as the kind it is, and does most (log 22). -/
def readyPos (i : Instr) : ScanPos :=
  match i with
  | .mpd .. => .mpd 1
  | .asdSlave .. => .asd .primary
  | .asdBridge .. => .asd .bridgeFirst
  | .asdSwrap .. => .asd (.slaveWrap 0)
  | .asdMwrap .. => .asd (.masterWrap 0)
  | .cib .. => .cib
  | .addrHi .. => .addrHi .primary 0 0
  | .szd .. => .szd .primary 0
  | .sizeHi .. => .sizeHi .primary 0 0
  | _ => .identity

/-- A block in the middle of a SCAN, in a component of one slave port, about to read word 0 of the stream as
the kind `i`, with the stream word `w` in the memory of the reference device (log 22). -/
def State.readyForWord (i : Instr) (w : Word) (s : State) : State :=
  let t := { s with busy := true, attached := true
                    scan := { s.scan with
                      cur := 0, lim := Config.eromLimitWords, nsp := 1, pos := readyPos i } }
  { t with bus := { device := .reference [], script := [], mem := t.bus.mem.writeWord t.streamPa w } }

end Sys2Proof.Machine
end

