-- ==== Sys2Proof/Machine/Step.lean ====
section
/-! DEFINITION. One step of the block, and where its next instruction lies. -/

namespace Sys2Proof.Machine

/-- One step: fetch and run (log 1, log 2). -/
def step (s : State) : Host.Outcome State Fault Refusal :=
  match fetch s with
  | .run i t => exec i t
  | .settled t => .next t
  | .rejected r => .refused r

/-- `s` with the instruction of this opcode-table word where `step` fetches next: a command on the command
port of a block that may run it, a descriptor word in the stream of a SCAN in progress (log 22). A word the
decoder reads nothing from is put on the command port as it stands. -/
def State.withFetchWord (s : State) (nbits w : Nat) : State :=
  match decodeTableWord nbits w with
  | none => { s with busy := false, commands := tableWords nbits w }
  | some i =>
    match i.position with
    | none => { s.readyForCommand i with commands := encode i }
    | some _ => s.readyForWord i ((encode i).headD 0#32)

end Sys2Proof.Machine
end

