-- ==== Sys2Proof/Machine/Encoder.lean ====
section
/-! DEFINITION. The spec's encoder of a core table (41_topology_scan.md R224, 92_eei_decisions.md D54), and the
conditions under which R224 states the round trip. -/

namespace Sys2Proof.Machine

/-- The component record of one row: identity pair, primary, secondary and wrapper ASD (R224). -/
def encodeRow (d : CoreDescriptor) : List Word :=
  [ciaWord 0x4BF#12 (d.coreId.setWidth 12) 0#4,
    cibWord d.rawRev 0#5 (if d.wrapperAddr.isSome then 1#5 else 0#5) 1#5 0#5 1#1]
  ++ encodeAsd 0#4 .slave d.primaryAddr d.primarySize
  ++ (match d.secondaryAddr, d.secondarySize with
      | some a, some z => encodeAsd 0#4 .slave a z
      | _, _ => [])
  ++ (match d.wrapperAddr with
      | some a => encodeAsd 0#4 .mwrap a 0x1000#64
      | none => [])

/-- `encodeTable(T)` of R224: the rows in order, then END. -/
def encodeTable (rows : List CoreDescriptor) : List Word := rows.flatMap encodeRow ++ [0x0000000F#32]

/-- An address or a size that a stream can give: bits 11:0 zero and, with `STRICT_ASD`, no high half. -/
def streamValue (strict : Bool) (v : Addr) : Bool :=
  v.extractLsb' 0 12 == 0#12 && (!strict || highWord v == 0#32)

/-- The conditions of R224 on one row, at position `k`. -/
def roundTripRow (p : Params) (k : Nat) (d : CoreDescriptor) : Bool :=
  d.coreIndex == BitVec.ofNat 32 k && decide (d.coreId.toNat < 0x1000)
    && streamValue p.strictAsd d.primaryAddr && streamValue p.strictAsd d.primarySize
    && (match d.secondaryAddr, d.secondarySize with
        | some a, some z => streamValue p.strictAsd a && z == Config.coreWindowSize
        | none, none => true
        | _, _ => false)
    && (match d.wrapperAddr with
        | some a => streamValue p.strictAsd a
        | none => true)
    && !p.skipKinds.contains (0x4BF#12, d.coreId.setWidth 12)
    && !p.bridgeKinds.contains (0x4BF#12, d.coreId.setWidth 12)

/-- The conditions of R224 on the rows from position `k` on. -/
def roundTripRows (p : Params) : Nat → List CoreDescriptor → Bool
  | _, [] => true
  | k, d :: rest => roundTripRow p k d && roundTripRows p (k + 1) rest

/-- The conditions of R224 on a table, but for `remapId` being the identity. -/
def roundTripTable (p : Params) (rows : List CoreDescriptor) : Bool :=
  roundTripRows p 0 rows && decide (rows.length ≤ p.maxCores)
    && decide ((encodeTable rows).length ≤ Config.eromLimitWords.toNat)

end Sys2Proof.Machine
end

