-- ==== Sys2Proof/Safety.lean ====
section
/-! DEFINITION. The words in which statements about the block are made: what a sound state is, what a command
leaves alone, what its events may be, and which word of the stream ends an ASD unit. -/

namespace Sys2Proof.Machine

/-! ## Memory and events -/

/-- The four bytes of the word at `pa` (R75, R77). -/
def wordBytes (pa : Addr) : List Nat :=
  [pa.toNat, (pa + 1#64).toNat, (pa + 2#64).toNat, (pa + 3#64).toNat]

/-- Every byte of memory outside the words at these addresses reads in `t` as it read in `s`. -/
def State.SameMemoryOutside (pas : List Addr) (s t : State) : Prop :=
  ∀ a : Nat, (∀ pa ∈ pas, a ∉ wordBytes pa) → t.bus.mem.readByte a = s.bus.mem.readByte a

/-- A bus write. -/
def Event.isWrite : Event → Bool
  | .memWrite _ _ _ => true
  | .memRead _ _ _ | .winSet _ _ | .map _ _ | .delay _ | .irqMask _ | .irqRestore _ => false

/-- A bus read. -/
def Event.isRead : Event → Bool
  | .memRead _ _ _ => true
  | .memWrite _ _ _ | .winSet _ _ | .map _ _ | .delay _ | .irqMask _ | .irqRestore _ => false

/-- A change of the interrupt mask. -/
def Event.isIrq : Event → Bool
  | .irqMask _ | .irqRestore _ => true
  | .memRead _ _ _ | .memWrite _ _ _ | .winSet _ _ | .map _ _ | .delay _ => false

/-- The address of a bus access. -/
def Event.accessed : Event → Option Addr
  | .memRead _ pa _ => some pa
  | .memWrite _ pa _ => some pa
  | .winSet _ _ | .map _ _ | .delay _ | .irqMask _ | .irqRestore _ => none

/-- The base a WinSet of the REG window gives. -/
def Event.regBase : Event → Option Addr
  | .winSet .reg b => some b
  | .winSet .wrap _ | .memRead _ _ _ | .memWrite _ _ _ | .map _ _ | .delay _ | .irqMask _
  | .irqRestore _ => none

/-- The base a WinSet of the WRAP window gives. -/
def Event.wrapBase : Event → Option Addr
  | .winSet .wrap b => some b
  | .winSet .reg _ | .memRead _ _ _ | .memWrite _ _ _ | .map _ _ | .delay _ | .irqMask _
  | .irqRestore _ => none

/-- The last base these events give a window, or the one it had (R51, R80). -/
def lastBase (base : Event → Option Addr) : List Event → Addr → Addr
  | [], a => a
  | e :: rest, a => lastBase base rest ((base e).getD a)

/-- The memory after the writes of these events. -/
def replay : List Event → Memory → Memory
  | [], m => m
  | .memWrite _ pa v :: rest, m => replay rest (m.writeWord pa v)
  | _ :: rest, m => replay rest m

/-- Every read of the trace was answered as the bus oracle answers it, given the events before it (R464). -/
def Answered (tr : List Event) : Prop :=
  ∀ (before after : List Event) (path : AccessPath) (pa : Addr) (v : Word),
    tr = before ++ .memRead path pa v :: after → v = Config.busOracle before pa

/-- The block's bus is the oracle of R464, with no test script before it. -/
def State.onOracle (s : State) : Prop := s.bus.device = .oracle ∧ s.bus.script = []

/-- The block's bus is the reference device of D35 over these wrapper and bridge pages, with no test script
before it. -/
def State.onReference (s : State) (pages : List (BitVec 52)) : Prop :=
  s.bus.device = .reference pages ∧ s.bus.script = []

/-- The reference device knows every wrapper of the table: each is one of these pages. -/
def State.wrappersIn (s : State) (pages : List (BitVec 52)) : Prop :=
  ∀ d ∈ s.table, ∀ wb, d.wrapperAddr = some wb → ∃ p ∈ pages, wb = pageBase p

/-! ## What a command leaves alone -/

/-- No command is in progress and the block is attached (R57, R119). -/
def State.ready (s : State) : Prop := s.busy = false ∧ s.attached = true

/-- `s` after a command that emits no event and only gives these response words: nothing else is changed. -/
def State.answers (s : State) (ws : List Word) : State :=
  { s with traceMark := s.trace.length, response := ws }

/-- What no command but ATTACH, DETACH and SCAN changes: the configuration (R44), the table and the sets
(R38, R40, R41), the scan and its registers, the parameters; and where its own events begin. -/
structure State.SameSession (s t : State) : Prop where
  attached : t.attached = s.attached
  busy : t.busy = s.busy
  cfg : t.cfg = s.cfg
  table : t.table = s.table
  bws : t.bws = s.bws
  oob : t.oob = s.oob
  scanStatus : t.scanStatus = s.scanStatus
  scan : t.scan = s.scan
  device : t.bus.device = s.bus.device
  commands : t.commands = s.commands
  params : t.params = s.params
  resetting : t.resetting = s.resetting
  attachMark : t.attachMark = s.attachMark
  traceMark : t.traceMark = s.trace.length

/-- FocusState and the windows are as they were, and no mask state is outstanding that was not. -/
structure State.SameFocus (s t : State) : Prop where
  focus : t.focus = s.focus
  winReg : t.winReg = s.winReg
  winWrap : t.winWrap = s.winWrap
  irqSaved : t.irqSaved = s.irqSaved

/-! ## The critical section of a windowed transport (R290, R313, R341) -/

/-- The windowed events of SWITCH_TO(i) (R281). -/
def State.switchEvents (s : State) (i : Word) : List Event :=
  match s.row i with
  | none => []
  | some d =>
    .winSet .reg d.primaryAddr ::
      (match d.wrapperAddr with
       | some wb => if s.cfg.windowCount = 2 then [.winSet .wrap wb] else []
       | none => [])

/-- The events before the body of a critical section on core i. -/
def State.enterEvents (s : State) (i : Word) : List Event :=
  .irqMask (Config.irqSaved s.trace) :: s.switchEvents i

/-- The events after it: the switch back to a previous focus that is another core, and the mask restored. -/
def State.leaveEvents (s : State) (i : Word) : List Event :=
  (match s.focus.idx with
   | some p => if p = i then [] else s.switchEvents p
   | none => []) ++ [.irqRestore (Config.irqSaved s.trace)]

/-- The index in focus after it: the previous one, or `i` if there was none (R313, R318). -/
def State.focusAfter (s : State) (i : Word) : Option Word :=
  match s.focus.idx with
  | some p => some p
  | none => some i

/-- What a critical section leaves of focus, windows and mask: the caches untouched, each window at the last
base programmed, no mask state outstanding. -/
structure State.AfterSection (s : State) (i : Word) (t : State) : Prop where
  mapReg : t.mapReg = s.mapReg
  mapWrap : t.mapWrap = s.mapWrap
  focus : t.focus.idx = s.focusAfter i
  winReg : t.winReg = lastBase Event.regBase t.commandTrace s.winReg
  winWrap : t.winWrap = lastBase Event.wrapBase t.commandTrace s.winWrap
  irqSaved : t.irqSaved = none

/-- The focus, if any, is a row of the table; on a windowed transport the switch back needs it (R313). -/
def State.focusValid (s : State) : Prop := ∀ p, s.focus.idx = some p → p.toNat < s.table.length

/-- The wrapper prologue's events (R341): a Map on first use on Flat, the critical section otherwise. -/
def State.wrapperEnter (s : State) (i : Word) (wb : Addr) : List Event :=
  if s.flat then
    (match cacheGet s.mapWrap i.toNat with
     | some _ => []
     | none => [.map wb Config.coreWindowSize])
  else s.enterEvents i

/-- The wrapper epilogue's events (R341). -/
def State.wrapperLeave (s : State) (i : Word) : List Event := if s.flat then [] else s.leaveEvents i

/-- What the wrapper prologue and epilogue leave: on Flat the focus untouched and the wrapper mapped, else what
the critical section leaves. -/
structure State.AfterWrapper (s : State) (i : Word) (wb : Addr) (t : State) : Prop where
  session : s.SameSession t
  flat : s.flat = true → s.SameFocus t ∧ t.mapReg = s.mapReg ∧
    t.mapWrap = (match cacheGet s.mapWrap i.toNat with
                 | some _ => s.mapWrap
                 | none => cacheSet s.mapWrap i.toNat wb)
  windowed : s.flat = false → s.AfterSection i t

/-- Core i, with row `d` and wrapper `wb`, can be reached by a lifecycle command (R341 (a) to (c)); on a
windowed transport there are two windows and the focus is a row. -/
structure State.WrapperReachable (s : State) (i : Word) (d : CoreDescriptor) (wb : Addr) : Prop where
  row : s.row i = some d
  wrapper : d.wrapperAddr = some wb
  windows : s.flat = false → s.cfg.windowCount = 2 ∧ s.focusValid

/-! ## Waits (R340, R342, R344) -/

/-- The events of a wait whose reads of `pa` returned these values: a delay between two reads. -/
def pollEvents (period : Nat) (pa : Addr) : List Word → List Event
  | [] => []
  | [v] => [.memRead .plain pa v]
  | v :: w :: rest => .memRead .plain pa v :: .delay period :: pollEvents period pa (w :: rest)

/-- These are the events of a pending-ops wait (R340): every read but the last non-zero, the last zero or the
bound reached. A bound of 0 still makes one read (log 23). -/
def IsWait (period maxPolls : Nat) (pa : Addr) (es : List Event) (drained : Bool) : Prop :=
  ∃ (vs : List Word) (last : Word),
    es = pollEvents period pa (vs ++ [last]) ∧ (∀ v ∈ vs, v ≠ 0#32) ∧ (drained = true ↔ last = 0#32) ∧
    vs.length + 1 ≤ max 1 maxPolls ∧ (drained = false → vs.length + 1 = max 1 maxPolls)

/-- A short wait, and whether its timeout was tolerated (R344). -/
def IsShortWait (p : Params) (pa : Addr) (es : List Event) (tolerated : Bool) : Prop :=
  IsWait p.pollPeriodUs p.shortPolls pa es (!tolerated)

/-- A two-tier wait (R342): a short wait, and if it times out a long one with a fresh count. -/
def IsTwoTierWait (p : Params) (pa : Addr) (es : List Event) (tolerated : Bool) : Prop :=
  (tolerated = false ∧ IsWait p.pollPeriodUs p.shortPolls pa es true) ∨
  ∃ short long, es = short ++ long ∧ IsWait p.pollPeriodUs p.shortPolls pa short false ∧
    IsWait p.pollPeriodUs p.longPolls pa long (!tolerated)

/-- The log entry of a tolerated pending-ops timeout. -/
def pendingLog (wb : Addr) (tolerated : Bool) : List LogEntry :=
  if tolerated then [.timeoutTolerated .pendingOps wb] else []

/-! ## The bodies of DISABLE and RESET, as events (R343, R345, R346) -/

/-- DisableBody on the wrapper at `wb`: already in reset, one read; else the whole sequence. -/
def IsDisable (p : Params) (wb : Addr) (ioBits : Word) (es : List Event) (lg : List LogEntry) : Prop :=
  (∃ r : Word, r.getLsbD 0 = true ∧ es = [.memRead .plain (wb + Config.resetCtrl) r] ∧ lg = []) ∨
  ∃ (r x y : Word) (wait : List Event) (tolerated : Bool), r.getLsbD 0 = false ∧
    IsTwoTierWait p (wb + Config.resetStatus) wait tolerated ∧
    es = .memRead .plain (wb + Config.resetCtrl) r :: wait ++
      [.memWrite .plain (wb + Config.resetCtrl) 1#32, .memRead .plain (wb + Config.resetCtrl) x,
       .delay p.dlyDisReset, .memWrite .plain (wb + Config.ioCtrl) ioBits,
       .memRead .plain (wb + Config.ioCtrl) y, .delay p.dlyDisIo] ∧
    lg = pendingLog wb tolerated

/-- The passes of the reset self-clear loop (R346), at most `n` of them, and whether the last read was zero. -/
def IsClearLoop (p : Params) (wb : Addr) : Nat → List Event → List LogEntry → Bool → Prop
  | 0, es, lg, cleared => es = [] ∧ lg = [] ∧ cleared = false
  | n + 1, es, lg, cleared => ∃ (wait : List Event) (tolerated : Bool) (v : Word),
      IsShortWait p (wb + Config.resetStatus) wait tolerated ∧
      ∃ restEs restLg,
        es = wait ++ [.memWrite .plain (wb + Config.resetCtrl) 0#32,
          .memRead .plain (wb + Config.resetCtrl) v] ++ restEs ∧
        lg = pendingLog wb tolerated ++ restLg ∧
        ((v = 0#32 ∧ restEs = [] ∧ restLg = [] ∧ cleared = true) ∨
         (v ≠ 0#32 ∧ IsClearLoop p wb n restEs restLg cleared))

/-- ResetBody on the wrapper at `wb`. -/
def IsReset (p : Params) (wb : Addr) (ioBits resetOnly : Word) (es : List Event) (lg : List LogEntry) : Prop :=
  ∃ (w1 w2 w3 loop : List Event) (t1 t2 t3 cleared : Bool) (loopLg : List LogEntry) (y : Word),
    IsTwoTierWait p (wb + Config.resetStatus) w1 t1 ∧ IsShortWait p (wb + Config.resetStatus) w2 t2 ∧
    IsShortWait p (wb + Config.resetStatus) w3 t3 ∧ IsClearLoop p wb p.resetRetries loop loopLg cleared ∧
    es = w1 ++ [.memWrite .plain (wb + Config.resetCtrl) 1#32, .delay p.dlyRstAssert] ++ w2 ++
      [.memWrite .plain (wb + Config.ioCtrl) (ioBits ||| resetOnly ||| 3#32)] ++ w3 ++ loop ++
      [.memWrite .plain (wb + Config.ioCtrl) (ioBits ||| 1#32), .memRead .plain (wb + Config.ioCtrl) y,
       .delay p.dlyRstFinal] ∧
    lg = pendingLog wb t1 ++ pendingLog wb t2 ++ pendingLog wb t3 ++ loopLg ++
      (if cleared then [] else [.timeoutTolerated .resetStuck wb])

/-- The events of a masked read-modify-write and the value it returns (R315): the write is of
`(w & ~mask) | value` with `w` the value first read. -/
def IsRmw (path : AccessPath) (pa : Addr) (mask value : Word) (es : List Event) (result : Word) : Prop :=
  (mask ||| value = 0#32 ∧ es = [.memRead path pa result]) ∨
  (mask ||| value ≠ 0#32 ∧ ∃ w : Word,
    es = [.memRead path pa w, .memWrite path pa ((w &&& ~~~mask) ||| value), .memRead path pa result])

/-! ## One bridge of CLEAR_TIMEOUT, as events (R392 to R395) -/

/-- The acknowledgement polls of a bridge, and whether `STATUS = 0` was seen within `ackPolls` reads (R394). -/
def IsAckWait (ackPolls : Nat) (b : Addr) (es : List Event) (acked : Bool) : Prop :=
  ∃ vs : List Word, (∀ v ∈ vs, v.extractLsb' 0 2 ≠ 0#2) ∧
    ((acked = false ∧ vs.length = ackPolls ∧
        es = vs.map (fun v => .memRead .plain (b + Config.errLogStatus) v)) ∨
     (acked = true ∧ vs.length + 1 ≤ ackPolls ∧ ∃ last : Word, last.extractLsb' 0 2 = 0#2 ∧
        es = (vs ++ [last]).map (fun v => .memRead .plain (b + Config.errLogStatus) v)))

/-- CLEAR_TIMEOUT on the bridge at `b`: its events, and whether it is left in error (R393). -/
def IsClearBridge (ackPolls : Nat) (b : Addr) (es : List Event) (fatal : Bool) : Prop :=
  ∃ status : Word,
    (status.extractLsb' 0 2 ≠ 2#2 ∧ fatal = false ∧
      es = [.map b Config.coreWindowSize, .memRead .plain (b + Config.errLogStatus) status]) ∨
    (status.extractLsb' 0 2 = 2#2 ∧ ∃ polls,
      IsAckWait ackPolls b polls (!fatal) ∧
      ∃ pulse, es = [.map b Config.coreWindowSize, .memRead .plain (b + Config.errLogStatus) status,
          .memWrite .plain (b + Config.errLogDone) 3#32] ++ polls ++ pulse ∧
        ((fatal = true ∧ pulse = []) ∨
         (fatal = false ∧ ∃ x y : Word, pulse =
            [.memWrite .plain (b + Config.resetCtrl) 1#32, .memRead .plain (b + Config.resetCtrl) x,
             .memWrite .plain (b + Config.resetCtrl) 0#32, .memRead .plain (b + Config.resetCtrl) y])))

/-- CLEAR_TIMEOUT on the bridges in order: the events, the bridges logged as fatal (R393 corner case a). -/
def IsClearBridges (ackPolls : Nat) : List Addr → List Event → List Addr → Prop
  | [], es, left => es = [] ∧ left = []
  | b :: rest, es, left => ∃ e1 e2 fatal left2, es = e1 ++ e2 ∧ IsClearBridge ackPolls b e1 fatal ∧
      left = (if fatal then b :: left2 else left2) ∧ IsClearBridges ackPolls rest e2 left2

/-! ## The legacy walk, as events (R230 to R235) -/

/-- Slot k of the bus with base `b` (R230). -/
def slotAddr (b : Addr) (k : Nat) : Addr := b + BitVec.ofNat 64 k * Config.legacySlotSize

/-- What a part of the walk leaves: its result, the base REG then holds, and the rows so far. -/
structure WalkEnd where
  result : Except ParseCause Unit
  reg : Addr
  rows : List CoreDescriptor

/-- The events of a run of `legacyIdentify` on a slot, REG standing at `reg` (R232): each read is of a word of a
page of the slot, on a windowed transport at offset `windowOffset word` from REG, which is programmed unless it
stands there (R80); `next` is applied to the value read. -/
def IsIdentify (flat : Bool) (slot : Addr) :
    SlotProc → Addr → List Event → Except ParseCause LegacyIdent → Addr → Prop
  | .done id, reg, es, r, reg' => es = [] ∧ r = .ok id ∧ reg' = reg
  | .raise c, reg, es, r, reg' => es = [] ∧ r = .error c ∧ reg' = reg
  | .read again page word next, reg, es, r, reg' => ∃ (v : Word) (rest : List Event),
      es = (if flat = true ∨ (reg = slot + pageBase page ∧ again = false) then []
        else [.winSet .reg (slot + pageBase page)]) ++
          .memRead .plain (slot + pageBase page + windowOffset word) v :: rest ∧
      IsIdentify flat slot (next v) (if flat then reg else slot + pageBase page) rest r reg'
  | .map base size next, reg, es, r, reg' => ∃ rest : List Event,
      es = .map base size :: rest ∧ IsIdentify flat slot next reg rest r reg'

/-- The row of a core found in a slot (R233): its index the number of rows before it, its id remapped, no
secondary space and no wrapper (R234). -/
def rowOfSlot (p : Params) (f : Family) (n : Nat) (slot : Addr) (id : LegacyIdent) : CoreDescriptor where
  coreIndex := BitVec.ofNat 32 n
  coreId := p.remappedId f id.coreId
  rawRev := id.rev
  primaryAddr := slot
  primarySize := Config.legacySlotSize
  secondaryAddr := none
  secondarySize := none
  wrapperAddr := none

/-- Slots `k`, `k + 1`, … of the bus with base `b`, `left` of them (Walk of R233): a sub-bus bridge is no row
and leads to `sub`; any other slot is the next row, or `PE_TABLE_FULL`. -/
def IsSlots (p : Params) (f : Family) (flat : Bool)
    (sub : LegacyIdent → Addr → List CoreDescriptor → List Event → WalkEnd → Prop) (b : Addr) :
    Nat → Nat → Addr → List CoreDescriptor → List Event → WalkEnd → Prop
  | 0, _, reg, rows, es, e => es = [] ∧ e = { result := .ok (), reg := reg, rows := rows }
  | left + 1, k, reg, rows, es, e => ∃ es1 r reg1 es2,
      IsIdentify flat (slotAddr b k) (Config.legacyIdentify (slotAddr b k)) reg es1 r reg1 ∧
      es = es1 ++ es2 ∧
      match r with
      | .error c => es2 = [] ∧ e = { result := .error c, reg := reg1, rows := rows }
      | .ok id =>
        if id.isSub then ∃ es3 es4 e3, sub id reg1 rows es3 e3 ∧ es2 = es3 ++ es4 ∧
          (match e3.result with
           | .error _ => es4 = [] ∧ e = e3
           | .ok _ => IsSlots p f flat sub b left (k + 1) e3.reg e3.rows es4 e)
        else if rows.length = p.maxCores then
          es2 = [] ∧ e = { result := .error .tableFull, reg := reg1, rows := rows }
        else IsSlots p f flat sub b left (k + 1) reg1
          (rows ++ [rowOfSlot p f rows.length (slotAddr b k) id]) es2 e

/-- A bus at depth 2: a sub-bus bridge found there is not followed (R233). -/
def IsSubWalk (p : Params) (f : Family) (flat : Bool) (id : LegacyIdent) (reg : Addr)
    (rows : List CoreDescriptor) (es : List Event) (e : WalkEnd) : Prop :=
  IsSlots p f flat (fun _ reg rows es e => es = [] ∧ e = { result := .ok (), reg := reg, rows := rows })
    (wordAddr id.subBase) id.subCount.toNat 0 reg rows es e

/-- The main bus of `count` slots, from `LEGACY_BASE` and with no row (R233). -/
def IsMainWalk (p : Params) (f : Family) (flat : Bool) (count : Nat) (reg : Addr) (es : List Event)
    (e : WalkEnd) : Prop :=
  IsSlots p f flat (IsSubWalk p f flat) Config.legacyBase count 0 reg [] es e

/-! ## Where an access may fall (R75, R80) -/

/-- A multiple of 4. -/
abbrev WordAligned (a : Addr) : Prop := a.toNat % 4 = 0

/-- An access at `pa` after the events `before` of its step, the windows having stood at `reg` and `wrap`: it is
a word's; and one through a window is at an offset inside that window, a multiple of 4, from the last base
programmed (R75, R80). Only a FAST access of a windowed transport goes past the windows (R81). -/
def AccessOk (flat : Bool) (reg wrap : Addr) (before : List Event) (path : AccessPath) (pa : Addr) : Prop :=
  WordAligned pa ∧
  (flat = true → path = .plain) ∧
  (flat = false → path = .plain → ∃ off : Addr, off.toNat < Config.windowSize.toNat ∧ WordAligned off ∧
    (pa = lastBase Event.regBase before reg + off ∨ pa = lastBase Event.wrapBase before wrap + off))

/-! ## Commands and words by kind -/

/-- An ATTACH, the one command of a detached block (R119). -/
def isAttach : Instr → Bool
  | .attach _ _ _ _ _ _ _ _ => true
  | _ => false

/-- The headers with an assigned `OPC` and no reserved bit (R116, R117). -/
def assignedHeaders : List Word :=
  [0x01#32, 0x02#32, 0x03#32, 0x10#32, 0x11#32, 0x12#32, 0x13#32, 0x14#32, 0x15#32, 0x16#32, 0x17#32,
   0x18#32, 0x20#32, 0x21#32, 0x30#32, 0x40#32, 0x41#32, 0x42#32, 0x43#32, 0x44#32, 0x50#32, 0x51#32]

/-- The valid words that the identity search passes over (R153): MPDs, ASDs and reserved words. -/
def skippedAtIdentity : Instr → Bool
  | .mpd .. | .asdSlave .. | .asdBridge .. | .asdSwrap .. | .asdMwrap .. | .reserved011 .. | .reserved100 ..
  | .reserved101 .. | .reserved111 .. => true
  | _ => false

/-! ## The words of an ASD unit (R105 to R111, R156) -/

/-- The fields of an ASD head: its type, address bits, port, size code and `AG32`. -/
def asdFields : Instr → Option (AsdType × BitVec 20 × BitVec 4 × BitVec 2 × BitVec 1)
  | .asdSlave a p z g => some (.slave, a, p, z, g)
  | .asdBridge a p z g => some (.bridge, a, p, z, g)
  | .asdSwrap a p z g => some (.swrap, a, p, z, g)
  | .asdMwrap a p z g => some (.mwrap, a, p, z, g)
  | _ => none

/-- A word that is valid at a tagged position: not INVALID, and not a word read by position only. -/
def validTagged : Instr → Bool
  | .cia .. | .mpd .. | .asdSlave .. | .asdBridge .. | .asdSwrap .. | .asdMwrap .. | .endOnes | .endRom
  | .reserved011 .. | .reserved100 .. | .reserved101 .. | .reserved111 .. => true
  | _ => false

/-- The size of an ASD head with size code 0, 1 or 2 (R107). -/
def fixedSize (sz : BitVec 2) : Addr :=
  if sz = 0#2 then 0x1000#64 else if sz = 1#2 then 0x2000#64 else 0x4000#64

/-- The TryASD site, the address and the size of the ASD unit that this word completes at the control point of
`s`, if it completes one: an accepted head alone, or the last of ADDR_HI, SZD and SIZE_HI (R105 to R111). -/
def State.unitEnd (s : State) (i : Instr) : Option (AsdSite × Addr × Addr) :=
  match s.scan.pos with
  | .asd site =>
    match asdFields i with
    | some (st, a, sp, sz, ag) =>
      if (sp.toNat, st) = site.wants s.scan.nsp ∧ ag = 0#1 ∧ sz ≠ 3#2 then
        some (site, 0#32 ++ a ++ 0#12, fixedSize sz)
      else none
    | none => none
  | .addrHi site lo sz =>
    match i with
    | .addrHi w => if sz ≠ 3#2 then some (site, w ++ lo, fixedSize sz) else none
    | _ => none
  | .szd site addr =>
    match i with
    | .szd size _ sg _ => if sg = 0#1 then some (site, addr, 0#32 ++ size ++ 0#12) else none
    | _ => none
  | .sizeHi site addr lo =>
    match i with
    | .sizeHi w => some (site, addr, w ++ lo)
    | _ => none
  | .identity | .cib | .mpd _ => none

/-- The TryASD site that this valid word is pushed back at: it is no ASD of the wanted port and type (R156). -/
def State.rejectedAt (s : State) (i : Instr) : Option AsdSite :=
  match s.scan.pos with
  | .asd site =>
    if validTagged i then
      match asdFields i with
      | some (st, _, sp, _, _) => if (sp.toNat, st) = site.wants s.scan.nsp then none else some site
      | none => some site
    else none
  | .identity | .cib | .mpd _ | .addrHi _ _ _ | .szd _ _ | .sizeHi _ _ _ => none

/-! ## How a scan ends (R198, R221, R222, R424) -/

/-- What the end of a scan leaves as it was, in success or in failure: the configuration, the parameters, the
command port, the mask, every byte of memory, and where the stream lies. -/
structure State.ScanEndFrame (s t : State) : Prop where
  busy : t.busy = false
  attached : t.attached = s.attached
  cfg : t.cfg = s.cfg
  params : t.params = s.params
  commands : t.commands = s.commands
  resetting : t.resetting = s.resetting
  irqSaved : t.irqSaved = s.irqSaved
  traceMark : t.traceMark = s.traceMark
  attachMark : t.attachMark = s.attachMark
  mem : t.bus.mem = s.bus.mem
  device : t.bus.device = s.bus.device
  lim : t.scan.lim = s.scan.lim
  eromBase : t.scan.eromBase = s.scan.eromBase
  staged : t.scan.rows = []

/-- A scan of `s` ended in the ParseError `c`: exactly the failure epilogue (R221), with the cause and the cursor
recorded. The caches and the windows are as they were, and nothing but a warning is logged. -/
structure State.ScanFailed (s t : State) (c : ParseCause) : Prop extends s.ScanEndFrame t where
  status : t.scanStatus = .parseError c t.scan.cur
  response : t.response = [1#32]
  table : t.table = []
  bws : t.bws = []
  oob : t.oob = none
  focus : t.focus.idx = none ∧ t.focus.reg = none ∧ t.focus.wrap = none
  mapReg : t.mapReg = s.mapReg
  mapWrap : t.mapWrap = s.mapWrap
  winReg : t.winReg = s.winReg
  winWrap : t.winWrap = s.winWrap
  log : ∃ warnings, t.log = s.log ++ warnings ∧ ∀ e ∈ warnings, e = .warnHigh ∨ e = .warnWrapSize

/-- A scan of `s` ended in success: the staged rows are the table, and what the parse captured stands (R222). -/
structure State.ScanSucceeded (s t : State) : Prop extends s.ScanEndFrame t where
  pos : s.scan.pos = .identity
  status : t.scanStatus = .ok
  response : t.response = [0#32]
  table : t.table = s.scan.rows
  bws : t.bws = s.bws
  oob : t.oob = s.oob
  focus : t.focus.idx = if s.scan.rows = [] then s.focus.idx else some 0#32
  log : t.log = s.log

/-- A Map or a WinSet, all that a focus switch emits (R281). -/
def Event.isSwitch : Event → Bool
  | .map _ _ | .winSet _ _ => true
  | .memRead _ _ _ | .memWrite _ _ _ | .delay _ | .irqMask _ | .irqRestore _ => false

/-- How many more TryASD calls can push the same word back before it is consumed or the scan ends (R492). -/
def ScanPos.retries : ScanPos → Nat
  | .asd .capture => 1
  | .asd .primary => 1
  | .asd .bridgeMore => 2
  | .asd (.extra _ _) => 1
  | .asd (.slavePort _ j) => if j = 0 then 0 else 1
  | .asd .bridgeFirst | .asd (.masterWrap _) | .asd (.slaveWrap _) => 0
  | .identity | .cib | .mpd _ | .addrHi _ _ _ | .szd _ _ | .sizeHi _ _ _ => 0

/-! ## A sound state -/

/-- What ATTACH can latch (R44, R190), and what a block not yet attached holds (log 5). -/
def Cfg.legal (c : Cfg) : Prop :=
  (c.transport = .flat → c.windowCount = 0 ∧ c.fastPath = []) ∧
  (c.transport ≠ .flat → c.windowCount = 1 ∨ c.windowCount = 2) ∧ c.fastPath.length ≤ 2

/-- Rows in which each `coreIndex` is the row's own position (R37). -/
def RowsDense (rows : List CoreDescriptor) : Prop :=
  ∀ (k : Nat) (d : CoreDescriptor), rows[k]? = some d → d.coreIndex = BitVec.ofNat 32 k

/-- The secondary size is present exactly when the secondary address is, and is the core window size (R37,
R256). -/
def CoreDescriptor.SecondaryOk (d : CoreDescriptor) : Prop :=
  (d.secondaryAddr = none ∧ d.secondarySize = none) ∨
  ∃ a, d.secondaryAddr = some a ∧ d.secondarySize = some Config.coreWindowSize

/-- The addresses that a row leads accesses to are multiples of 4 (R75, R108). -/
def CoreDescriptor.Aligned (d : CoreDescriptor) : Prop :=
  WordAligned d.primaryAddr ∧ ∀ wb, d.wrapperAddr = some wb → WordAligned wb

/-- What is read of an ASD unit so far has an address that is a multiple of 4 (R108, R109). -/
def ScanPos.Aligned : ScanPos → Prop
  | .addrHi _ lo _ => lo.toNat % 4 = 0
  | .szd _ addr | .sizeHi _ addr _ => WordAligned addr
  | .identity | .cib | .mpd _ | .asd _ => True

/-- Every address that a later access is made from is a multiple of 4 (R75). -/
structure State.AlignedInv (s : State) : Prop where
  rows : ∀ d ∈ s.table, d.Aligned
  staged : ∀ d ∈ s.scan.rows, d.Aligned
  bridges : ∀ b ∈ s.bws, WordAligned b
  stream : s.scan.eromBase.toNat % 4 = 0
  primary : WordAligned s.scan.pri.addr
  wrapper : ∀ wb, s.scan.wrap = some wb → WordAligned wb
  unit : s.scan.pos.Aligned

/-- The table, the rows a SCAN has staged, and the bridge set (R36, R37, R40, R225). -/
structure State.TableInv (s : State) : Prop where
  bounded : s.table.length ≤ s.params.maxCores
  stagedBounded : s.scan.rows.length ≤ s.params.maxCores
  dense : RowsDense s.table
  stagedDense : RowsDense s.scan.rows
  secondary : ∀ d ∈ s.table, d.SecondaryOk
  stagedSecondary : ∀ d ∈ s.scan.rows, d.SecondaryOk
  secSize : ∀ a, s.scan.sec = some a → a.size = Config.coreWindowSize
  bridges : s.bws.length ≤ s.params.maxBridges
  failed : ∀ c n, s.scanStatus = .parseError c n → s.table = []
  unscanned : s.scanStatus = .never → s.table = []
  detached : s.attached = false → s.table = []

/-- The focus is a row of the table, and FocusState, the windows and the caches agree with that row (R42, R43,
R281, R287). -/
structure State.FocusInv (s : State) : Prop where
  row : ∀ p, s.focus.idx = some p → ∃ d, s.row p = some d
  none_ : s.focus.idx = none → s.focus = Focus.unset
  flat : s.flat = true → ∀ p d, s.focus.idx = some p → s.row p = some d →
    s.focus.reg = some (.mapped d.primaryAddr) ∧ s.focus.wrap = d.wrapperAddr.map .mapped
  windowed : s.flat = false → ∀ p d, s.focus.idx = some p → s.row p = some d →
    s.focus.reg = some (.window .reg) ∧ s.winReg = d.primaryAddr ∧
    (s.cfg.windowCount ≠ 2 ∨ d.wrapperAddr = none → s.focus.wrap = none) ∧
    (∀ wb, s.cfg.windowCount = 2 → d.wrapperAddr = some wb →
      s.focus.wrap = some (.window .wrap) ∧ s.winWrap = wb)
  cachedReg : ∀ k a, cacheGet s.mapReg k = some a → ∃ d, s.table[k]? = some d ∧ d.primaryAddr = a
  cachedWrap : ∀ k a, cacheGet s.mapWrap k = some a → ∃ d, s.table[k]? = some d ∧ d.wrapperAddr = some a

/-- A SCAN in progress (R31, R32, R57, R195): attached, on an Advanced bus, the cursor at most at its limit,
the old table, focus and caches gone. -/
structure State.ScanInv (s : State) : Prop where
  attached : s.attached = true
  advanced : s.cfg.busGen = .advanced
  limit : s.scan.lim = Config.eromLimitWords
  cursor : s.scan.cur ≤ s.scan.lim
  table : s.table = []
  focus : s.focus = Focus.unset
  mapReg : s.mapReg = []
  mapWrap : s.mapWrap = []
  window : s.flat = false → s.winReg = zext64 s.scan.eromBase

/-- The invariant of the block. -/
structure State.Inv (s : State) : Prop where
  cfg : s.cfg.legal
  table : s.TableInv
  focus : s.FocusInv
  scan : s.busy = true → s.ScanInv
  aligned : s.AlignedInv
  resetting : s.resetting = none
  irq : s.irqSaved = none
  mem : s.bus.mem.wf
  mark : s.traceMark ≤ s.trace.length
  attachMark : s.attachMark ≤ s.trace.length

end Sys2Proof.Machine
end

