-- ==== Sys2Proof/Certificates/Slice0/Obligations.lean ====
section
/-! DEFINITION. The statements about the block, in the order of OBLIGATIONS.json. A docstring names the rule of
spec/ a statement formalises, and the log entry of every clause that rests on a choice of the model. -/

open Sys2Proof Sys2Proof.Machine

/-! ## Encodings -/

/-- A well-formed descriptor word decodes, at its own position, to the instruction it encodes (R100 to R113). -/
def Obligations.DescriptorRoundTrip : Prop :=
  ∀ (i : Instr) (p : Position), i.wellFormed = true → i.position = some p →
    ∃ w, encode i = [w] ∧ decodeStream p w = i

/-- A well-formed command decodes from its words, whatever words follow it (R116 to R118). -/
def Obligations.CommandRoundTrip : Prop :=
  ∀ (i : Instr) (rest : List Word), i.wellFormed = true → i.position = none →
    decodeCommand (encode i ++ rest) = .command i rest

/-- No bit of a stream word is dropped, at any position: what it decodes to is well-formed, encodes to it, and is of
the kind of the position, but that a word at the CIB position with a TAG other than 000 is what its tag says (R199). -/
def Obligations.StreamWordReencodes : Prop :=
  ∀ (p : Position) (w : Word), encode (decodeStream p w) = [w] ∧ (decodeStream p w).wellFormed = true ∧
    ((decodeStream p w).position = some p ∨
      (p = .cib ∧ w.extractLsb' 1 3 ≠ 0#3 ∧ (decodeStream p w).position = some .tagged))

/-- Words written out from the encoding tables of R101 to R112 and R117 decode to what they stand for. -/
def Obligations.SampleWordsDecode : Prop :=
  decodeStream .tagged 0x4BF80001#32 = .cia 0x4BF 0x800 0 ∧
  decodeStream .cib 0x2B004201#32 = .cib 0x2B 0 1 1 0 1 ∧
  decodeStream .tagged 0x00000103#32 = .mpd 0 1 0 ∧
  decodeStream .tagged 0x18000005#32 = .asdSlave 0x18000 0 0 0 ∧
  decodeStream .tagged 0x18200045#32 = .asdBridge 0x18200 0 0 0 ∧
  decodeStream .tagged 0x18102185#32 = .asdSwrap 0x18102 1 0 0 ∧
  decodeStream .tagged 0x181010D5#32 = .asdMwrap 0x18101 0 1 0 ∧
  decodeStream .szd 0x00100008#32 = .szd 0x100 0 1 0 ∧
  decodeStream .tagged 0x0000000F#32 = .endRom ∧
  decodeCommand [0x41#32, 0#32, 4#32, 8#32] = .command (.reset 0 4 8) []

/-! ## Steps -/

/-- Between scans a step runs the command at the head of the port with its words taken off it; with no command
there, or not all of one, the block holds its state (R116, R439, R471; the port is the model's, log 1). -/
def Obligations.StepRunsCommand : Prop :=
  ∀ s : State, s.busy = false →
    (∀ i rest, decodeCommand s.commands = .command i rest → step s = exec i { s with commands := rest }) ∧
    (decodeCommand s.commands = .idle ∨ decodeCommand s.commands = .incomplete → step s = .next s)

/-- During a scan a step reads the word under the cursor, moves the cursor by one, and runs the word as its
position decodes it; at the limit it ends the scan with `PE_NO_END` (R150, R151; one word a step, log 2). -/
def Obligations.StepReadsStreamWord : Prop :=
  ∀ s : State, s.busy = true →
    (s.scan.lim ≤ s.scan.cur → step s = .next (s.parseFail .noEnd)) ∧
    (s.scan.cur < s.scan.lim →
      let pa := (if s.cfg.transport = .flat then zext64 s.scan.eromBase else s.winReg)
        + 4#64 * zext64 s.scan.cur
      let w := s.busAnswer pa
      step s = exec (decodeStream s.scan.pos.position w)
        { s with scan := { s.scan with cur := s.scan.cur + 1#32 }
                 bus := { s.bus with script := s.bus.script.eraseP (fun e => e.1 == pa) }
                 trace := s.trace ++ [.memRead .plain pa w] })

/-- No step faults, and a step of a scan in progress is never refused: every error of the block is a status
(60_exceptions.md section 2). Both are the model's reading: that words on the port wait during a scan is log 19
(DEDUCED; R57 and R119 read alone would refuse one issued while BUSY = 1), and that the fault of a word out of its
position is never met by step is log 21 (DESIGN CHOICE). -/
def Obligations.StepNeverFaults : Prop :=
  ∀ s : State, (∀ r, step s ≠ .fault r) ∧ (s.busy = true → ∃ t, step s = .next t)

/-- What R119 refuses: commands while BUSY = 1, any but ATTACH while detached, ATTACH while attached, headers
with reserved bits, and unassigned headers. -/
def Obligations.RefusedCommands : Prop :=
  (∀ (s : State) (i : Instr), i.position = none →
    (s.busy = true → exec i s = .refused .commandWhileBusy) ∧
    (s.busy = false → s.attached = false → isAttach i = false → exec i s = .refused .detached) ∧
    (s.busy = false → s.attached = true → isAttach i = true → exec i s = .refused .alreadyAttached)) ∧
  ∀ (s : State) (h : Word) (ops : List Word), s.busy = false → s.commands = h :: ops →
    (h.extractLsb' 8 24 ≠ 0#24 → step s = .refused .reservedHeaderBits) ∧
    (h.extractLsb' 8 24 = 0#24 → h ∉ assignedHeaders →
      step s = .refused (.unassignedOpcode (h.extractLsb' 0 8)))

/-! ## ATTACH, DETACH, reset -/

/-- ATTACH with operands in range latches the configuration and gives every register its value of R60, with no
bus access; with an operand out of range it answers RangeError and changes nothing; an attached block refuses
it (R190, R473). That REG and WRAP keep their values is log 6 (DESIGN CHOICE: R52 and R470 call them unknown); the
trace, its mark and the attach mark are log 11 and log 29 (DESIGN CHOICE). -/
def Obligations.AttachRule : Prop :=
  ∀ (s : State) (t g w c r p n : Word) (fast : List (Word × Word)),
    s.busy = false → fast.length = n.toNat →
    (s.attached = true → exec (.attach t g w c r p n fast) s = .refused .alreadyAttached) ∧
    (s.attached = false →
      (t.toNat ≤ 2 ∧ g.toNat ≤ 1 ∧ (t ≠ 0#32 → w = 1#32 ∨ w = 2#32) ∧ n.toNat ≤ 2 ∧
        (t = 0#32 → n = 0#32)) →
      ∃ u, exec (.attach t g w c r p n fast) s = .next u ∧ u.attached = true ∧ u.busy = false ∧
        u.cfg = { transport := if t = 0#32 then .flat else if t = 1#32 then .windowed else .legacyWindowed
                  busGen := if g = 0#32 then .advanced else .legacy
                  windowCount := if t = 0#32 then 0 else w.toNat
                  fastPath := fast
                  family := Config.chipFamily c r p } ∧
        u.table = [] ∧ u.bws = [] ∧ u.oob = none ∧ u.focus.idx = none ∧ u.focus.reg = none ∧
        u.focus.wrap = none ∧ (∀ k, cacheGet u.mapReg k = none) ∧ (∀ k, cacheGet u.mapWrap k = none) ∧
        u.scanStatus = .never ∧ u.irqSaved = none ∧ u.log = [] ∧ u.response = [0#32] ∧
        u.bus = s.bus ∧ u.trace = s.trace ∧ u.traceMark = s.trace.length ∧ u.attachMark = s.trace.length ∧
        u.resetting = none ∧ u.winReg = s.winReg ∧ u.winWrap = s.winWrap ∧ u.commands = s.commands ∧ u.params = s.params) ∧
    (s.attached = false →
      ¬ (t.toNat ≤ 2 ∧ g.toNat ≤ 1 ∧ (t ≠ 0#32 → w = 1#32 ∨ w = 2#32) ∧ n.toNat ≤ 2 ∧
        (t = 0#32 → n = 0#32)) →
      exec (.attach t g w c r p n fast) s = .next (s.answers [2#32]))

/-- DETACH clears the table, the sets, the focus, the caches and the status, and answers OK (R192). That it
changes nothing else, the log, CFG_*, the registers of SCAN and the windows, is the model's: log 14 (DEDUCED, of
R30 and R192) and log 6 (DESIGN CHOICE). -/
def Obligations.DetachRule : Prop :=
  ∀ s : State, s.ready →
    exec .detach s = .next { s.answers [0#32] with
      attached := false, table := [], bws := [], oob := none, mapReg := [], mapWrap := []
      focus := { idx := none, reg := none, wrap := none }, scanStatus := .never }

/-- The block is detached after reset: it refuses every command but ATTACH, and an ATTACH in range attaches it
(R470; State.reset itself is the model's, log 5). -/
def Obligations.ResetAcceptsOnlyAttach : Prop :=
  (∀ (i : Instr) (rest : List Word), i.wellFormed = true → i.position = none → isAttach i = false →
    step { State.reset with commands := encode i ++ rest } = .refused .detached) ∧
  ∀ (g c r p : Word) (rest : List Word), g.toNat ≤ 1 →
    ∃ t, step { State.reset with commands := encode (.attach 0 g 0 c r p 0 []) ++ rest } = .next t ∧
      t.attached = true ∧ t.commands = rest ∧ t.trace = []

/-! ## SCAN: its start -/

/-- SCAN on an Advanced bus discards the old table, reads the enumeration pointer through the transport, and
either opens the stream there or, if it is not 4-aligned, ends with `PE_EROM_PTR` before any other access
(R195, R196). That the parse follows in later steps, with BUSY = 1, is log 2. -/
def Obligations.ScanLocatesStream : Prop :=
  ∀ s : State, s.ready → s.cfg.busGen = .advanced →
    let first : Event := if s.cfg.transport = .flat then .map Config.bootCoreBase Config.coreWindowSize
      else .winSet .reg Config.bootCoreBase
    let pa : Addr := Config.bootCoreBase + Config.eromPtrOffset
    let p : Word := { s with trace := s.trace ++ [first] }.busAnswer pa
    ∃ t, exec .scan s = .next t ∧
      t.table = [] ∧ t.bws = [] ∧ t.oob = none ∧ t.focus.idx = none ∧ t.focus.reg = none ∧
      t.focus.wrap = none ∧ (∀ k, cacheGet t.mapReg k = none) ∧ (∀ k, cacheGet t.mapWrap k = none) ∧
      t.attached = true ∧ t.cfg = s.cfg ∧ t.params = s.params ∧ t.commands = s.commands ∧ t.log = s.log ∧
      t.irqSaved = s.irqSaved ∧ t.winWrap = s.winWrap ∧ t.bus.mem = s.bus.mem ∧
      t.bus.device = s.bus.device ∧ t.traceMark = s.trace.length ∧
      (p.extractLsb' 0 2 = 0#2 →
        t.busy = true ∧ t.scanStatus = s.scanStatus ∧ t.response = [] ∧ t.scan.eromBase = p ∧
        t.scan.cur = 0#32 ∧ t.scan.lim = 0x380#32 ∧ t.scan.rows = [] ∧ t.scan.pos = .identity ∧
        t.trace = s.trace ++ [first, .memRead .plain pa p,
          if s.cfg.transport = .flat then .map (zext64 p) 0xE00#64 else .winSet .reg (zext64 p)] ∧
        t.winReg = if s.cfg.transport = .flat then s.winReg else zext64 p) ∧
      (p.extractLsb' 0 2 ≠ 0#2 →
        t.busy = false ∧ (∃ n, t.scanStatus = .parseError .eromPtr n) ∧ t.response = [1#32] ∧
        t.trace = s.trace ++ [first, .memRead .plain pa p] ∧
        t.winReg = if s.cfg.transport = .flat then s.winReg else Config.bootCoreBase)

/-- SCAN on a Legacy bus reads the identity register and makes the walk of R233 over the slots it counts: slot k of
a bus lies at its base plus k slot sizes, each core found there is the next row, sub-buses are followed to depth 2,
bridges are no rows. If the walk succeeds its rows are the table and core 0, if there is one, gets the focus; if it
raises a ParseError the table is empty (R230 to R236). No bridge and no router address is captured, and a count of 0
succeeds with no row (R235). One step, and where REG is programmed, are log 18; the form of the parameter
procedure and of the constants is log 8 (DESIGN CHOICE both). That a ParseError there records the word index 0 is
log 15 (DEDUCED: the spec gives a legacy error no index). -/
def Obligations.LegacyScanRule : Prop :=
  ∀ s : State, s.ready → s.cfg.busGen = .legacy →
    let before : List Event := if s.cfg.transport = .flat then [] else [.winSet .reg Config.legacyBase]
    let pa : Addr := Config.legacyBase + Config.legacyIdOffset
    let w : Word := { s with trace := s.trace ++ before }.busAnswer pa
    let count : Word := if Config.legacyHasCount s.cfg.family w then Config.legacyCountField w
      else Config.legacyCountTable s.cfg.family
    let reg : Addr := if s.cfg.transport = .flat then s.winReg else Config.legacyBase
    ∃ t es e, exec .scan s = .next t ∧ t.busy = false ∧
      IsMainWalk s.params s.cfg.family s.flat count.toNat reg es e ∧
      t.bws = [] ∧ t.oob = none ∧ t.attached = true ∧ t.cfg = s.cfg ∧ t.params = s.params ∧
      t.commands = s.commands ∧ t.log = s.log ∧ t.irqSaved = s.irqSaved ∧ t.bus.mem = s.bus.mem ∧
      t.bus.device = s.bus.device ∧
      (∀ d ∈ t.table, d.primarySize = Config.legacySlotSize ∧ d.secondaryAddr = none ∧
        d.secondarySize = none ∧ d.wrapperAddr = none) ∧
      (match e.result with
       | .ok _ => t.scanStatus = .ok ∧ t.response = [0#32] ∧ t.table = e.rows ∧
          (match e.rows with
           | [] => t.trace = s.trace ++ before ++ .memRead .plain pa w :: es ∧ t.focus = Focus.unset ∧
              t.mapReg = [] ∧ t.winReg = e.reg
           | d :: _ => t.focus.idx = some 0#32 ∧ t.focus.wrap = none ∧
              (s.cfg.transport = .flat →
                t.trace = s.trace ++ before ++ .memRead .plain pa w :: es ++ [.map d.primaryAddr 0x1000#64] ∧
                t.focus.reg = some (.mapped d.primaryAddr) ∧ t.mapReg = [some d.primaryAddr] ∧
                t.winReg = s.winReg) ∧
              (s.cfg.transport ≠ .flat →
                t.trace = s.trace ++ before ++ .memRead .plain pa w :: es ++ [.winSet .reg d.primaryAddr] ∧
                t.focus.reg = some (.window .reg) ∧ t.mapReg = [] ∧ t.winReg = d.primaryAddr))
       | .error c => t.scanStatus = .parseError c 0#32 ∧ t.response = [1#32] ∧ t.table = [] ∧
          t.trace = s.trace ++ before ++ .memRead .plain pa w :: es ∧ t.focus = Focus.unset ∧
          t.mapReg = [] ∧ t.winReg = e.reg) ∧
      t.mapWrap = [] ∧ t.winWrap = s.winWrap ∧
      (count = 0#32 → t.scanStatus = .ok ∧ t.table = [])

/-! ## SCAN: the words of a component -/

/-- The identity search: CIA opens a component, its word kept, and the CIB is read next (R102, R153, R155); every
other valid word but END is passed over (R153), and an invalid word is at every tagged position (R113, R152),
with nothing but the cursor moved. -/
def Obligations.IdentitySearch : Prop :=
  (∀ (s : State) (m c : BitVec 12) (l : BitVec 4), s.busy = true → s.scan.pos = .identity →
    exec (.cia m c l) s =
      .next { s with scan := { s.scan with cia := m ++ c ++ l ++ 0b0001#4, pos := .cib } }) ∧
  (∀ (s : State) (i : Instr), s.busy = true → s.scan.pos = .identity → skippedAtIdentity i = true →
    exec i s = .next s) ∧
  (∀ (s : State) (r : BitVec 31), s.busy = true → s.scan.pos.position = .tagged →
    exec (.invalid r) s = .next s)

/-- CIB: the fields of the pair are decoded, and the component classified in the order of R201 on the raw
identity; a word there with another TAG ends the scan with `PE_CIB` (R199 to R205). -/
def Obligations.CibRule : Prop :=
  (∀ (s : State) (rev : BitVec 8) (nsw nmw nsp nmp : BitVec 5) (v : BitVec 1),
    s.busy = true → s.scan.pos = .cib →
    let mfg : BitVec 12 := s.scan.cia.extractLsb' 20 12
    let cid : BitVec 12 := s.scan.cia.extractLsb' 8 12
    let skipped : Bool := s.params.skipKinds.contains (mfg, cid)
    exec (.cib rev nsw nmw nsp nmp v) s = .next { s with scan := { s.scan with
      cib := rev ++ nsw ++ nmw ++ nsp ++ nmp ++ 0b000#3 ++ v
      mfg := mfg, cid := cid, ccl := s.scan.cia.extractLsb' 4 4
      rev := rev, nsw := nsw, nmw := nmw, nsp := nsp, nmp := nmp
      br := if skipped = false ∧ nsp ≠ 0#5 ∧ nmp = 0#5 then false else s.scan.br
      pos :=
        if skipped then .identity
        else if nsp = 0#5 then (if cid ∈ s.params.captureKinds then .asd .capture else .identity)
        else if nmp = 0#5 then .asd .primary
        else .mpd nmp.toNat } }) ∧
  ∀ (s : State) (i : Instr) (w : Word), s.busy = true → s.scan.pos = .cib → i.position = some .tagged →
    encode i = [w] → w.extractLsb' 1 3 ≠ 0#3 → exec i s = .next (s.parseFail .badCib)

/-- Master-port descriptors are counted down; after the last the primary is tried with BR = 0; any other valid
word in their place ends the scan with `PE_MPD` (R154, R205). -/
def Obligations.MpdRule : Prop :=
  ∀ (s : State) (n : Nat), s.busy = true → s.scan.pos = .mpd n →
    (∀ r u p, 1 < n → exec (.mpd r u p) s = .next { s with scan := { s.scan with pos := .mpd (n - 1) } }) ∧
    (∀ r u p, n ≤ 1 →
      exec (.mpd r u p) s = .next { s with scan := { s.scan with pos := .asd .primary, br := false } }) ∧
    (∀ i, validTagged i = true → (∀ r u p, i ≠ .mpd r u p) → exec i s = .next (s.parseFail .badMpd))

/-- An ASD unit goes on: AG32 = 1 reads ADDR_HI next, size code 3 reads an SZD, SG32 = 1 reads SIZE_HI, and the
halves are assembled high : low (R108 to R111, R114, R156 to R158). -/
def Obligations.UnitContinues : Prop :=
  ∀ (s : State) (site : AsdSite), s.busy = true →
    (∀ i st a sp sz ag, s.scan.pos = .asd site → asdFields i = some (st, a, sp, sz, ag) →
      (sp.toNat, st) = site.wants s.scan.nsp →
      (ag = 1#1 → exec i s = .next { s with scan := { s.scan with pos := .addrHi site (a ++ 0#12) sz } }) ∧
      (ag = 0#1 → sz = 3#2 →
        exec i s = .next { s with scan := { s.scan with pos := .szd site (0#32 ++ a ++ 0#12) } })) ∧
    (∀ lo w, s.scan.pos = .addrHi site lo 3#2 →
      exec (.addrHi w) s = .next { s with scan := { s.scan with pos := .szd site (w ++ lo) } }) ∧
    (∀ addr size h l, s.scan.pos = .szd site addr →
      exec (.szd size h 1#1 l) s =
        .next { s with scan := { s.scan with pos := .sizeHi site addr (size ++ 0#12) } })

/-- The primary (R206, R208): a slave ASD of port 0 is recorded, a high half being `PE_HIGH` or a warning; any
other valid word is pushed back and a bridge ASD is tried at the same cursor. -/
def Obligations.PrimarySite : Prop :=
  ∀ (s : State) (i : Instr), s.busy = true →
    (∀ addr size, s.unitEnd i = some (.primary, addr, size) →
      let t : State := { s with scan := { s.scan with
        pri := { port := 0, type := .slave, addr := addr, size := size } } }
      (addr.extractLsb' 32 32 = 0#32 ∧ size.extractLsb' 32 32 = 0#32 →
        exec i s = .next { t with scan := { t.scan with pos := .asd (.extra 0 none) } }) ∧
      (¬ (addr.extractLsb' 32 32 = 0#32 ∧ size.extractLsb' 32 32 = 0#32) →
        (s.params.strictAsd = true → exec i s = .next (t.parseFail .high)) ∧
        (s.params.strictAsd = false →
          exec i s = .next { t with log := s.log ++ [.warnHigh]
                                    scan := { t.scan with pos := .asd (.extra 0 none) } }))) ∧
    (s.rejectedAt i = some .primary →
      exec i s = .next { s with scan := { s.scan with
        cur := s.scan.cur - 1#32, pos := .asd .bridgeFirst } })

/-- The bridge retry (R206, R207): a bridge ASD of port 0 stands as the primary and sets BR; with neither the
scan ends with `PE_FIRST_ASD`; further bridge ASDs are discarded until another valid word is pushed back. -/
def Obligations.BridgeSite : Prop :=
  ∀ (s : State) (i : Instr), s.busy = true →
    (∀ addr size, s.unitEnd i = some (.bridgeFirst, addr, size) →
      exec i s = .next { s with scan := { s.scan with
        pri := { port := 0, type := .bridge, addr := addr, size := size }, br := true
        pos := .asd .bridgeMore } }) ∧
    (s.rejectedAt i = some .bridgeFirst →
      exec i s = .next (State.parseFail .firstAsd
        { s with scan := { s.scan with cur := s.scan.cur - 1#32 } })) ∧
    (∀ addr size, s.unitEnd i = some (.bridgeMore, addr, size) →
      exec i s = .next { s with scan := { s.scan with pos := .asd .bridgeMore } }) ∧
    (s.rejectedAt i = some .bridgeMore →
      exec i s = .next { s with scan := { s.scan with
        cur := s.scan.cur - 1#32, pos := .asd (.extra 0 none) } })

/-- Further slave ASDs of port 0 (R209) are counted and the first kept; the one of a single further ASD of
window size is the secondary (R210), its address's high half checked unless the component is a bridge. -/
def Obligations.SecondarySite : Prop :=
  ∀ (s : State) (i : Instr) (n : Nat) (first : Option Asd), s.busy = true →
    (∀ addr size, s.unitEnd i = some (.extra n first, addr, size) →
      exec i s = .next { s with scan := { s.scan with
        pos := .asd (.extra (n + 1)
          (if n = 0 then some { port := 0, type := .slave, addr := addr, size := size } else first)) } }) ∧
    (s.rejectedAt i = some (.extra n first) →
      let sec : Option Asd := first.filter (fun a => n == 1 && a.size == 0x1000#64)
      let t : State := { s with scan := { s.scan with cur := s.scan.cur - 1#32, sec := sec } }
      (sec = none ∨ s.scan.br = true → exec i s = .next (t.slavePorts 1)) ∧
      (∀ a, sec = some a → s.scan.br = false →
        (a.addr.extractLsb' 32 32 = 0#32 → exec i s = .next (t.slavePorts 1)) ∧
        (a.addr.extractLsb' 32 32 ≠ 0#32 → s.params.strictAsd = true →
          exec i s = .next (t.parseFail .high)) ∧
        (a.addr.extractLsb' 32 32 ≠ 0#32 → s.params.strictAsd = false →
          exec i s = .next (State.slavePorts 1 { t with log := s.log ++ [.warnHigh] }))))

/-- The side-channel capture of an allow-listed component with no slave port (R204), and the ports above 0,
where no ASD at all is `PE_SP_EMPTY(i)` (R211). The first clauses give the port and type of each site: port 0 and
slave, or bridge at the bridge retry (R204, R206, R207, R209), port k and slave for slave port k (R211). -/
def Obligations.CaptureAndPortSites : Prop :=
  (∀ (nsp : BitVec 5) (k j n : Nat) (first : Option Asd),
    AsdSite.capture.wants nsp = (0, .slave) ∧ AsdSite.primary.wants nsp = (0, .slave) ∧
    AsdSite.bridgeFirst.wants nsp = (0, .bridge) ∧ AsdSite.bridgeMore.wants nsp = (0, .bridge) ∧
    (AsdSite.extra n first).wants nsp = (0, .slave) ∧ (AsdSite.slavePort k j).wants nsp = (k, .slave)) ∧
  ∀ (s : State) (i : Instr), s.busy = true →
    (∀ addr size, s.unitEnd i = some (.capture, addr, size) →
      exec i s = .next { s with oob := some addr, scan := { s.scan with pos := .identity } }) ∧
    (s.rejectedAt i = some .capture →
      exec i s = .next { s with scan := { s.scan with cur := s.scan.cur - 1#32, pos := .identity } }) ∧
    (∀ k j addr size, s.unitEnd i = some (.slavePort k j, addr, size) →
      exec i s = .next { s with scan := { s.scan with pos := .asd (.slavePort k (j + 1)) } }) ∧
    (∀ k j, s.rejectedAt i = some (.slavePort k j) →
      let t : State := { s with scan := { s.scan with cur := s.scan.cur - 1#32 } }
      (j = 0 → exec i s = .next (t.parseFail (.spEmpty k))) ∧
      (j ≠ 0 → exec i s = .next (t.slavePorts (k + 1))))

/-- Wrapper ASDs (R212 to R215, R217): one must stand for each region, of window size; the first address is
recorded, its high half checked unless the component is a bridge; a recognized bridge's slave wrappers go to
the bridge set, which must have room. The first clauses give the port and type of each site: master wrapper k is at
port k (R212), slave wrapper k at port fwp + k, fwp being 0 if NSP = 1 and 1 otherwise (R213). -/
def Obligations.WrapperSites : Prop :=
  (∀ (nsp : BitVec 5) (k : Nat), (AsdSite.masterWrap k).wants nsp = (k, .mwrap) ∧
    (nsp = 1#5 → (AsdSite.slaveWrap k).wants nsp = (k, .swrap)) ∧
    (nsp ≠ 1#5 → (AsdSite.slaveWrap k).wants nsp = (k + 1, .swrap))) ∧
  ∀ (s : State) (i : Instr), s.busy = true →
    let warned (size : Addr) : State :=
      if size = 0x1000#64 then s else { s with log := s.log ++ [.warnWrapSize] }
    let recorded (t : State) (addr : Addr) : State :=
      if t.scan.wrap = none then
        { t with scan := { t.scan with wrap := some addr }
                 log := if t.scan.br = false ∧ addr.extractLsb' 32 32 ≠ 0#32 then t.log ++ [.warnHigh]
                   else t.log }
      else t
    let highFails (addr : Addr) : Prop := s.scan.wrap = none ∧ s.scan.br = false ∧
      addr.extractLsb' 32 32 ≠ 0#32 ∧ s.params.strictAsd = true
    (∀ k, s.rejectedAt i = some (.masterWrap k) →
      exec i s = .next (State.parseFail (.mwMissing k)
        { s with scan := { s.scan with cur := s.scan.cur - 1#32 } })) ∧
    (∀ k, s.rejectedAt i = some (.slaveWrap k) →
      exec i s = .next (State.parseFail (.swMissing k)
        { s with scan := { s.scan with cur := s.scan.cur - 1#32 } })) ∧
    (∀ k addr size, s.unitEnd i = some (.masterWrap k, addr, size) →
      (size ≠ 0x1000#64 ∧ s.params.strictAsd = true → exec i s = .next (s.parseFail (.mwSize k))) ∧
      (size = 0x1000#64 ∨ s.params.strictAsd = false →
        (highFails addr → exec i s = .next (State.parseFail .high
          { s with scan := { s.scan with wrap := some addr } })) ∧
        (¬ highFails addr → exec i s = .next ((recorded (warned size) addr).masterWraps (k + 1))))) ∧
    (∀ k addr size, s.unitEnd i = some (.slaveWrap k, addr, size) →
      (size ≠ 0x1000#64 ∧ s.params.strictAsd = true → exec i s = .next (s.parseFail (.swSize k))) ∧
      (size = 0x1000#64 ∨ s.params.strictAsd = false →
        (highFails addr → exec i s = .next (State.parseFail .high
          { s with scan := { s.scan with wrap := some addr } })) ∧
        (¬ highFails addr →
          let t := recorded (warned size) addr
          (s.params.bridgeKinds.contains (s.scan.mfg, s.scan.cid) = false →
            exec i s = .next (t.slaveWraps (k + 1))) ∧
          (s.params.bridgeKinds.contains (s.scan.mfg, s.scan.cid) = true →
            (s.bws.length = s.params.maxBridges → exec i s = .next (t.parseFail .bwsFull)) ∧
            (s.bws.length ≠ s.params.maxBridges →
              exec i s = .next (State.slaveWraps (k + 1) { t with bws := s.bws ++ [addr] }))))))

/-- The order of the regions of a component, and its commit (R211 to R213, R218 to R220): slave ports, master
wrappers, slave wrappers, then a bridge is discarded and any other component becomes the next row. -/
def Obligations.RegionOrder : Prop :=
  ∀ (s : State) (k : Nat),
    s.slavePorts k =
      (if k < s.scan.nsp.toNat then { s with scan := { s.scan with pos := .asd (.slavePort k 0) } }
       else State.masterWraps 0 { s with scan := { s.scan with wrap := none } }) ∧
    s.masterWraps k =
      (if k < s.scan.nmw.toNat then { s with scan := { s.scan with pos := .asd (.masterWrap k) } }
       else s.slaveWraps 0) ∧
    s.slaveWraps k =
      (if k < s.scan.nsw.toNat then { s with scan := { s.scan with pos := .asd (.slaveWrap k) } }
       else if s.scan.br then { s with scan := { s.scan with pos := .identity } }
       else if s.scan.rows.length = s.params.maxCores then s.parseFail .tableFull
       else { s with scan := { s.scan with pos := .identity, rows := s.scan.rows ++
         [{ coreIndex := BitVec.ofNat 32 s.scan.rows.length
            coreId := s.params.remappedId s.cfg.family (s.scan.cid.setWidth 16)
            rawRev := s.scan.rev
            primaryAddr := s.scan.pri.addr
            primarySize := s.scan.pri.size
            secondaryAddr := s.scan.sec.map (·.addr)
            secondarySize := s.scan.sec.map (·.size)
            wrapperAddr := s.scan.wrap }] } })

/-- Either END word at the identity search ends the scan: the rows are the table, the status is OK, and core 0,
if there is one, gets the focus with the events of SWITCH_TO(0) (R198, R222). -/
def Obligations.EndFinishesScan : Prop :=
  ∀ (s : State) (i : Instr), s.busy = true → s.scan.pos = .identity → s.mapReg = [] → s.mapWrap = [] →
    i = .endOnes ∨ i = .endRom →
    let done : State := { s with table := s.scan.rows, scanStatus := .ok, busy := false
                                 scan := { s.scan with rows := [] }, response := [0#32] }
    (s.scan.rows = [] → exec i s = .next done) ∧
    (∀ d rest, s.scan.rows = d :: rest → s.cfg.transport = .flat →
      exec i s = .next { done with
        trace := s.trace ++ [.map d.primaryAddr 0x1000#64] ++
          (match d.wrapperAddr with | some wb => [.map wb 0x1000#64] | none => [])
        mapReg := [some d.primaryAddr]
        mapWrap := match d.wrapperAddr with | some wb => [some wb] | none => []
        focus := { idx := some 0#32, reg := some (.mapped d.primaryAddr)
                   wrap := d.wrapperAddr.map .mapped } }) ∧
    (∀ d rest, s.scan.rows = d :: rest → s.cfg.transport ≠ .flat →
      exec i s = .next { done with
        trace := s.trace ++ done.switchEvents 0#32
        winReg := d.primaryAddr
        winWrap := match d.wrapperAddr with
          | some wb => if s.cfg.windowCount = 2 then wb else s.winWrap
          | none => s.winWrap
        focus := { idx := some 0#32, reg := some (.window .reg)
                   wrap := match d.wrapperAddr with
                     | some _ => if s.cfg.windowCount = 2 then some (.window .wrap) else none
                     | none => none } })

/-- Every end of a parse on an Advanced bus, a step from BUSY = 1 to BUSY = 0: at the limit `PE_NO_END` with no
access; below it either success, an END at the identity search, or a ParseError with no access after the failing
read; and what every ParseError leaves, there and in the meaning of a descriptor word: no row, no bridge, no router
address, no focus, the cause and the cursor recorded, and all else as it was but the component's working registers
and warnings in the log (`ScanFailed`; R151, R221, R424). After END only the Maps or WinSets of the focus switch
follow (R222). One word a step is log 2, that LIM and EROM_BASE keep their values log 16 (DEDUCED), and the
parameters and the marks log 7, log 11 and log 29 (DESIGN CHOICE). -/
def Obligations.ParseErrorDiscardsAll : Prop :=
  (∀ s t : State, s.busy = true → step s = .next t → t.busy = false →
    (s.scan.lim ≤ s.scan.cur →
      s.ScanFailed t .noEnd ∧ t.scan = { s.scan with rows := [] } ∧ t.log = s.log ∧ t.trace = s.trace ∧
        t.bus = s.bus) ∧
    (s.scan.cur < s.scan.lim → ∃ v : Word,
      (s.ScanSucceeded t ∧ (v = 0xFFFFFFFF#32 ∨ v = 0x0000000F#32) ∧
        ∃ es, t.trace = s.trace ++ .memRead .plain s.streamPa v :: es ∧
          (∀ e ∈ es, e.isSwitch = true) ∧ (s.scan.rows = [] → es = [])) ∨
      (∃ c, s.ScanFailed t c ∧ t.trace = s.trace ++ [.memRead .plain s.streamPa v]))) ∧
  ∀ (s : State) (i : Instr) (t : State), s.busy = true → i.position ≠ none → exec i s = .next t →
    t.busy = false →
    (s.ScanSucceeded t ∧ (i = .endOnes ∨ i = .endRom)) ∨
    (∃ c, s.ScanFailed t c ∧ t.trace = s.trace ∧ t.bus = s.bus)

/-- What a descriptor word leaves alone: the bus with every byte of memory, the configuration, the parameters,
the mask and the commands; and, while the scan goes on, all but the scan's registers, the bridge set, the
router address and warnings in the log (R30, R33). -/
def Obligations.DescriptorWordFrame : Prop :=
  ∀ (s : State) (i : Instr) (t : State), i.position ≠ none → exec i s = .next t →
    (t.attached = s.attached ∧ t.cfg = s.cfg ∧ t.params = s.params ∧ t.bus = s.bus ∧
      t.irqSaved = s.irqSaved ∧ t.commands = s.commands ∧ t.traceMark = s.traceMark ∧
      (∀ a, t.bus.mem.readByte a = s.bus.mem.readByte a) ∧
      ∃ warnings, t.log = s.log ++ warnings ∧ ∀ e ∈ warnings, e = .warnHigh ∨ e = .warnWrapSize) ∧
    (t.busy = true → t.trace = s.trace ∧ t.table = s.table ∧ t.focus = s.focus ∧ t.mapReg = s.mapReg ∧
      t.mapWrap = s.mapWrap ∧ t.winReg = s.winReg ∧ t.winWrap = s.winWrap ∧
      t.scanStatus = s.scanStatus ∧ t.response = s.response ∧ t.scan.lim = s.scan.lim ∧
      t.scan.eromBase = s.scan.eromBase)

/-- While a scan goes on, a step reads the word at the cursor, and the cursor of the next read is one more or,
after a push back, the same; it is never less (R226). That a step is one read is log 2 (DESIGN CHOICE). -/
def Obligations.CursorNeverGoesBack : Prop :=
  ∀ s t : State, s.busy = true → step s = .next t → t.busy = true →
    (∃ v, t.trace = s.trace ++ [.memRead .plain s.streamPa v]) ∧
    (t.scan.cur = s.scan.cur ∨ t.scan.cur.toNat = s.scan.cur.toNat + 1)

/-- A scan ends: from any point of it within three steps for each word left and the retries of its position,
and from SCAN itself within three reads of each word of the stream and the pointer's (R492). Steps are the model's,
one for each word (log 2). -/
def Obligations.ScanEnds : Prop :=
  (∀ s : State, s.busy = true → s.scan.cur ≤ s.scan.lim →
    ∃ n t, n ≤ 3 * (s.scan.lim.toNat - s.scan.cur.toNat) + s.scan.pos.retries + 1 ∧
      Host.Core.run Sys2Proof.core n s = .next t ∧ t.busy = false) ∧
  (∀ s : State, s.ready → s.cfg.busGen = .advanced →
    ∃ u n t, exec .scan s = .next u ∧ Host.Core.run Sys2Proof.core n u = .next t ∧ t.busy = false ∧
      (t.commandTrace.filter Event.isRead).length ≤ 3 * 0x380 + 1)

/-- SCAN of the encoding of a table gives that table (R224), on either transport, from a reference device that
answers the pointer and the words (R224). The steps are the model's (log 2), the device that of log 3. -/
def Obligations.ScanRoundTrip : Prop :=
  ∀ (s : State) (rows : List CoreDescriptor) (p : Word) (pages : List (BitVec 52)), s.ready →
    s.cfg.busGen = .advanced → s.onReference pages → s.commands = [0x03#32] →
    roundTripTable s.params rows = true →
    (∀ cid, s.params.remappedId s.cfg.family cid = cid) →
    p.extractLsb' 0 2 = 0#2 → s.busAnswer (Config.bootCoreBase + Config.eromPtrOffset) = p →
    (∀ (k : Nat) (w : Word), (encodeTable rows)[k]? = some w →
      s.busAnswer (zext64 p + 4#64 * BitVec.ofNat 64 k) = w) →
    ∃ n t, Host.Core.run Sys2Proof.core n s = .next t ∧ t.busy = false ∧ t.scanStatus = .ok ∧
      t.table = rows ∧ t.response = [0#32]

/-! ## The core table -/

/-- The queries on a row of the table, and CORE_COUNT and OOB_ROUTER_ADDR: the value in the words of R116, no
event, and nothing else changed (R250 to R258). The cause word of CORE_COUNT is written out from the table of R421:
its code, and the index of an indexed cause. CORE_COUNT gives three words before its status (log 12). -/
def Obligations.QueriesAnswer : Prop :=
  let indexed (code : Word) (i : Nat) : Word := code ||| (BitVec.ofNat 32 i <<< 8)
  let causeWord (c : ParseCause) : Word := match c with
    | .noEnd => 1#32
    | .eromPtr => 2#32
    | .badCib => 3#32
    | .badMpd => 4#32
    | .firstAsd => 5#32
    | .high => 6#32
    | .spEmpty i => indexed 7#32 i
    | .mwMissing i => indexed 8#32 i
    | .mwSize i => indexed 9#32 i
    | .swMissing i => indexed 10#32 i
    | .swSize i => indexed 11#32 i
    | .bwsFull => 12#32
    | .tableFull => 13#32
  (∀ (s : State) (i : Word) (d : CoreDescriptor), s.ready → s.table[i.toNat]? = some d →
    let optional (v : Option Addr) : List Word := match v with
      | some a => [1#32, a.extractLsb' 0 32, a.extractLsb' 32 32, 0#32]
      | none => [0#32, 0#32, 0#32, 0#32]
    exec (.coreId i) s = .next (s.answers [d.coreId.setWidth 32, 0#32]) ∧
    exec (.coreRev i) s =
      .next (s.answers [s.params.remappedRev s.cfg.family d.coreId d.rawRev, 0#32]) ∧
    exec (.corePrimaryAddr i) s =
      .next (s.answers [d.primaryAddr.extractLsb' 0 32, d.primaryAddr.extractLsb' 32 32, 0#32]) ∧
    exec (.corePrimarySize i) s =
      .next (s.answers [d.primarySize.extractLsb' 0 32, d.primarySize.extractLsb' 32 32, 0#32]) ∧
    exec (.coreSecondaryAddr i) s = .next (s.answers (optional d.secondaryAddr)) ∧
    exec (.coreSecondarySize i) s = .next (s.answers (optional d.secondarySize)) ∧
    exec (.coreWrapperAddr i) s = .next (s.answers (optional d.wrapperAddr))) ∧
  (∀ s : State, s.ready →
    exec .coreCount s = .next (s.answers (match s.scanStatus with
      | .never => [BitVec.ofNat 32 s.table.length, 0#32, 0#32, 0#32]
      | .ok => [BitVec.ofNat 32 s.table.length, 1#32, 0#32, 0#32]
      | .parseError c _ => [BitVec.ofNat 32 s.table.length, 2#32, causeWord c, 0#32])) ∧
    exec .oobRouterAddr s = .next (s.answers (match s.oob with
      | some a => [1#32, a.extractLsb' 0 32, a.extractLsb' 32 32, 0#32]
      | none => [0#32, 0#32, 0#32, 0#32])))

/-- Every per-core command with an index not below COUNT answers RangeError with zero result words, and does
nothing else (R249); so does ACCESS_REGISTER with an offset outside the window or not a multiple of 4 (R310). -/
def Obligations.IndexOutOfRange : Prop :=
  (∀ (s : State) (i off mask value : Word), s.ready → (0x1000 ≤ off.toNat ∨ off.toNat % 4 ≠ 0) →
    exec (.accessRegister i off mask value) s = .next (s.answers [0#32, 2#32])) ∧
  ∀ (s : State) (i : Word), s.ready → s.table.length ≤ i.toNat →
    exec (.coreId i) s = .next (s.answers [0#32, 2#32]) ∧
    exec (.coreRev i) s = .next (s.answers [0#32, 2#32]) ∧
    exec (.corePrimaryAddr i) s = .next (s.answers [0#32, 0#32, 2#32]) ∧
    exec (.corePrimarySize i) s = .next (s.answers [0#32, 0#32, 2#32]) ∧
    exec (.coreSecondaryAddr i) s = .next (s.answers [0#32, 0#32, 0#32, 2#32]) ∧
    exec (.coreSecondarySize i) s = .next (s.answers [0#32, 0#32, 0#32, 2#32]) ∧
    exec (.coreWrapperAddr i) s = .next (s.answers [0#32, 0#32, 0#32, 2#32]) ∧
    exec (.switchTo i) s = .next (s.answers [0#32, 0#32, 2#32]) ∧
    (∀ off m v, exec (.accessRegister i off m v) s = .next (s.answers [0#32, 2#32])) ∧
    (∀ b, exec (.disable i b) s = .next (s.answers [2#32])) ∧
    (∀ b r, exec (.reset i b r) s = .next (s.answers [2#32])) ∧
    exec (.isUp i) s = .next (s.answers [0#32, 2#32]) ∧
    (∀ m v, exec (.cflags i m v) s = .next (s.answers [0#32, 2#32])) ∧
    (∀ m v, exec (.sflags i m v) s = .next (s.answers [0#32, 2#32]))

/-- A command that answers RangeError emits no event and leaves every register, the log and the bus as they
were (R423). -/
def Obligations.RangeErrorChangesNothing : Prop :=
  ∀ (s : State) (i : Instr) (t : State), i.position = none → exec i s = .next t →
    t.response.getLast? = some 2#32 → t = s.answers t.response

/-- Only SCAN, DETACH and ATTACH change the table (R38), the bridge set (R40, R53), the router address (R41), the
scan status (R34) or the configuration (R44). That the scan's registers and the parameters are kept as well is
log 16 (DEDUCED) and log 7 (DESIGN CHOICE). -/
def Obligations.OnlyScanChangesTable : Prop :=
  ∀ (s : State) (i : Instr) (t : State), i.position = none → i ≠ .scan → i ≠ .detach → isAttach i = false →
    exec i s = .next t →
    t.table = s.table ∧ t.bws = s.bws ∧ t.oob = s.oob ∧ t.scanStatus = s.scanStatus ∧ t.cfg = s.cfg ∧
    t.attached = s.attached ∧ t.scan = s.scan ∧ t.params = s.params

/-! ## Focus -/

/-- SWITCH_TO of a row: on Flat the windows not mapped yet are mapped and cached, on a windowed transport REG is
programmed and, with two windows and a wrapper, WRAP; the core has the focus and its handle is answered (R281).
CURRENT_FOCUS answers the index in focus and changes nothing (R286). -/
def Obligations.FocusCommands : Prop :=
  (∀ (s : State) (i : Word) (d : CoreDescriptor), s.ready → s.table[i.toNat]? = some d →
    (s.cfg.transport = .flat →
      let reg : Addr := (cacheGet s.mapReg i.toNat).getD d.primaryAddr
      let wrap : Option Addr := d.wrapperAddr.map (fun wb => (cacheGet s.mapWrap i.toNat).getD wb)
      exec (.switchTo i) s = .next { s.answers [1#32, i, 0#32] with
        trace := s.trace ++
          (if cacheGet s.mapReg i.toNat = none then [.map d.primaryAddr 0x1000#64] else []) ++
          (match d.wrapperAddr with
           | some wb => if cacheGet s.mapWrap i.toNat = none then [.map wb 0x1000#64] else []
           | none => [])
        mapReg := if cacheGet s.mapReg i.toNat = none then cacheSet s.mapReg i.toNat d.primaryAddr
          else s.mapReg
        mapWrap := match d.wrapperAddr with
          | some wb => if cacheGet s.mapWrap i.toNat = none then cacheSet s.mapWrap i.toNat wb else s.mapWrap
          | none => s.mapWrap
        focus := { idx := some i, reg := some (.mapped reg), wrap := wrap.map .mapped } }) ∧
    (s.cfg.transport ≠ .flat →
      exec (.switchTo i) s = .next { s.answers [1#32, i, 0#32] with
        trace := s.trace ++ s.switchEvents i
        winReg := d.primaryAddr
        winWrap := match d.wrapperAddr with
          | some wb => if s.cfg.windowCount = 2 then wb else s.winWrap
          | none => s.winWrap
        focus := { idx := some i, reg := some (.window .reg)
                   wrap := match d.wrapperAddr with
                     | some _ => if s.cfg.windowCount = 2 then some (.window .wrap) else none
                     | none => none } })) ∧
  (∀ s : State, s.ready →
    exec .currentFocus s = .next (s.answers (match s.focus.idx with
      | some p => [1#32, p, 0#32]
      | none => [0#32, 0#32, 0#32])))

/-- On Flat, SWITCH_TO makes no bus access: its events are at most two Maps, it leaves core i mapped, and with the
core mapped it emits nothing (R43, R284). A mapping once made is kept by every command but SCAN, DETACH and ATTACH
(R43), so the Maps are made only the first time after a SCAN, whatever commands stand between; the last clause
says so of one SWITCH_TO between two. -/
def Obligations.FlatSwitchMapsOnce : Prop :=
  let mapped (s : State) (i : Word) (d : CoreDescriptor) : Prop :=
    cacheGet s.mapReg i.toNat ≠ none ∧ (d.wrapperAddr ≠ none → cacheGet s.mapWrap i.toNat ≠ none)
  (∀ (s : State) (i : Word) (t : State), s.cfg.transport = .flat → exec (.switchTo i) s = .next t →
    t.commandTrace.length ≤ 2 ∧ (∀ e ∈ t.commandTrace, ∃ pa size, e = .map pa size) ∧ t.bus = s.bus ∧
    ∀ d, s.table[i.toNat]? = some d → mapped t i d ∧ (mapped s i d → t.commandTrace = [])) ∧
  (∀ (s : State) (j : Instr) (t : State), j.position = none → j ≠ .scan → j ≠ .detach → isAttach j = false →
    exec j s = .next t → ∀ (k : Nat) (a : Addr),
      (cacheGet s.mapReg k = some a → cacheGet t.mapReg k = some a) ∧
      (cacheGet s.mapWrap k = some a → cacheGet t.mapWrap k = some a)) ∧
  ∀ (s : State) (i k : Word) (t u v : State), s.cfg.transport = .flat →
    exec (.switchTo i) s = .next t → exec (.switchTo k) t = .next u → exec (.switchTo i) u = .next v →
    v.commandTrace = []

/-! ## Masked register access -/

/-- ACCESS_REGISTER on Flat: the register at `primaryAddr + off`, reached through a mapping made once, with no
use of FocusState and no mask change (R311, R312, R315). -/
def Obligations.AccessFlat : Prop :=
  ∀ (s : State) (i off mask value : Word) (d : CoreDescriptor), s.ready → s.cfg.transport = .flat →
    s.table[i.toNat]? = some d → off.toNat < 0x1000 → off.toNat % 4 = 0 →
    ∃ t es v, exec (.accessRegister i off mask value) s = .next t ∧ t.response = [v, 0#32] ∧
      IsRmw .plain (d.primaryAddr + zext64 off) mask value es v ∧
      t.trace = s.trace ++
        (if cacheGet s.mapReg i.toNat = none then [.map d.primaryAddr 0x1000#64] else []) ++ es ∧
      t.mapReg = (if cacheGet s.mapReg i.toNat = none then cacheSet s.mapReg i.toNat d.primaryAddr
        else s.mapReg) ∧
      t.mapWrap = s.mapWrap ∧ t.log = s.log ∧ s.SameSession t ∧ s.SameFocus t ∧
      s.SameMemoryOutside [d.primaryAddr + zext64 off] t ∧
      (mask ||| value = 0#32 → t.bus.mem = s.bus.mem) ∧
      (∀ f, exec (.accessRegister i off mask value) { s with focus := f } = .next { t with focus := f })

/-- ACCESS_REGISTER on a fast-path core, the lowest index whose `coreId` has an entry: the same register, every
access tagged FAST, no window, mask or focus touched (R81, R314). -/
def Obligations.AccessFast : Prop :=
  ∀ (s : State) (i off mask value : Word) (d : CoreDescriptor), s.ready → s.cfg.transport ≠ .flat →
    s.table[i.toNat]? = some d → off.toNat < 0x1000 → off.toNat % 4 = 0 →
    (∃ e ∈ s.cfg.fastPath, e.1 = d.coreId.setWidth 32) →
    (∀ (k : Nat) (c : CoreDescriptor), k < i.toNat → s.table[k]? = some c → c.coreId ≠ d.coreId) →
    ∃ t es v, exec (.accessRegister i off mask value) s = .next t ∧ t.response = [v, 0#32] ∧
      IsRmw .fast (d.primaryAddr + zext64 off) mask value es v ∧ t.trace = s.trace ++ es ∧
      t.mapReg = s.mapReg ∧ t.mapWrap = s.mapWrap ∧ t.log = s.log ∧ s.SameSession t ∧ s.SameFocus t ∧
      s.SameMemoryOutside [d.primaryAddr + zext64 off] t ∧
      (mask ||| value = 0#32 → t.bus.mem = s.bus.mem) ∧
      (∀ f, exec (.accessRegister i off mask value) { s with focus := f } = .next { t with focus := f })

/-- ACCESS_REGISTER on any other core of a windowed transport: the read-modify-write of the same register
stands between the switch in and the switch back, with interrupts masked throughout (R290, R313). -/
def Obligations.AccessSlow : Prop :=
  ∀ (s : State) (i off mask value : Word) (d : CoreDescriptor), s.ready → s.cfg.transport ≠ .flat →
    s.table[i.toNat]? = some d → off.toNat < 0x1000 → off.toNat % 4 = 0 → s.focusValid →
    ¬ ((∃ e ∈ s.cfg.fastPath, e.1 = d.coreId.setWidth 32) ∧
       ∀ (k : Nat) (c : CoreDescriptor), k < i.toNat → s.table[k]? = some c → c.coreId ≠ d.coreId) →
    ∃ t es v, exec (.accessRegister i off mask value) s = .next t ∧ t.response = [v, 0#32] ∧
      IsRmw .plain (d.primaryAddr + zext64 off) mask value es v ∧
      t.trace = s.trace ++ s.enterEvents i ++ es ++ s.leaveEvents i ∧
      t.log = s.log ∧ s.SameSession t ∧ s.AfterSection i t ∧
      s.SameMemoryOutside [d.primaryAddr + zext64 off] t ∧
      (mask ||| value = 0#32 → t.bus.mem = s.bus.mem)

/-- `ACCESS_REGISTER(i, off, 0, 0)` emits no MemWrite and leaves memory as it was, on every transport and path
(R316). -/
def Obligations.GetWritesNothing : Prop :=
  ∀ (s : State) (i off : Word) (t : State), exec (.accessRegister i off 0#32 0#32) s = .next t →
    (∀ e ∈ t.commandTrace, e.isWrite = false) ∧ t.bus.mem = s.bus.mem

/-- Scenario E (R317): on a windowed transport a core that is not a fast-path core is switched to and, from
another focus, switched back from; a fast-path core is never switched to. The WinSets of REG show it. -/
def Obligations.ScenarioE : Prop :=
  ∀ (s : State) (i off mask value : Word) (d : CoreDescriptor) (t : State), s.cfg.transport ≠ .flat →
    s.table[i.toNat]? = some d → off.toNat < 0x1000 → off.toNat % 4 = 0 →
    exec (.accessRegister i off mask value) s = .next t →
    let fast : Prop := (∃ e ∈ s.cfg.fastPath, e.1 = d.coreId.setWidth 32) ∧
      ∀ (k : Nat) (c : CoreDescriptor), k < i.toNat → s.table[k]? = some c → c.coreId ≠ d.coreId
    (∀ p dp, ¬ fast → s.focus.idx = some p → s.table[p.toNat]? = some dp → p ≠ i →
      t.commandTrace.filterMap Event.regBase = [d.primaryAddr, dp.primaryAddr] ∧ t.focus.idx = some p) ∧
    (¬ fast → s.focus.idx = some i →
      t.commandTrace.filterMap Event.regBase = [d.primaryAddr] ∧ t.focus.idx = some i) ∧
    (fast → t.commandTrace.filterMap Event.regBase = [] ∧ t.focus = s.focus)

/-- ACCESS_REGISTER preserves the focus: `FOCUS_IDX` is `i` if it was NONE and the slow path was taken (a windowed
transport, and not the lowest index whose `coreId` has an entry), and otherwise it is as it was (R318). The focus before is NONE or a row, which Inv says of every state a run reaches. -/
def Obligations.FocusPreserved : Prop :=
  ∀ (s : State) (i off mask value : Word) (t : State), s.focusValid →
    exec (.accessRegister i off mask value) s = .next t → t.response.getLast? ≠ some 2#32 →
    ∃ d, s.table[i.toNat]? = some d ∧
      let fast : Prop := (∃ e ∈ s.cfg.fastPath, e.1 = d.coreId.setWidth 32) ∧
        ∀ (k : Nat) (c : CoreDescriptor), k < i.toNat → s.table[k]? = some c → c.coreId ≠ d.coreId
      let exception : Prop := s.focus.idx = none ∧ s.cfg.transport ≠ .flat ∧ ¬ fast
      (exception → t.focus.idx = some i) ∧ (¬ exception → t.focus.idx = s.focus.idx)

/-! ## Lifecycle -/

/-- DISABLE of a core whose wrapper can be reached: its body's events between the wrapper prologue's and
epilogue's, the timeouts tolerated in the log, answer OK; only `RESETCTRL` and `IOCTRL` may be written (R340 to
R343). -/
def Obligations.DisableSequence : Prop :=
  ∀ (s : State) (i ioBits : Word) (d : CoreDescriptor) (wb : Addr), s.ready →
    s.WrapperReachable i d wb →
    ∃ t es lg, exec (.disable i ioBits) s = .next t ∧ t.response = [0#32] ∧
      IsDisable s.params wb ioBits es lg ∧
      t.trace = s.trace ++ s.wrapperEnter i wb ++ es ++ s.wrapperLeave i ∧ t.log = s.log ++ lg ∧
      s.AfterWrapper i wb t ∧ s.SameMemoryOutside [wb + Config.resetCtrl, wb + Config.ioCtrl] t

/-- RESET of a core whose wrapper can be reached: the whole sequence of R345 whatever `RESETCTRL` holds, with
the retry loop of R346, answer OK; only `RESETCTRL` and `IOCTRL` are written. -/
def Obligations.ResetSequence : Prop :=
  ∀ (s : State) (i ioBits resetOnly : Word) (d : CoreDescriptor) (wb : Addr), s.ready →
    s.WrapperReachable i d wb →
    ∃ t es lg, exec (.reset i ioBits resetOnly) s = .next t ∧ t.response = [0#32] ∧
      IsReset s.params wb ioBits resetOnly es lg ∧
      t.trace = s.trace ++ s.wrapperEnter i wb ++ es ++ s.wrapperLeave i ∧ t.log = s.log ++ lg ∧
      s.AfterWrapper i wb t ∧ s.SameMemoryOutside [wb + Config.resetCtrl, wb + Config.ioCtrl] t

/-- IS_UP of a core whose wrapper can be reached: `IOCTRL` is read, and `RESETCTRL` only if its clock bits are
0b01; the answer is 1 when then the reset bit is 0; no write (R352, R353). -/
def Obligations.IsUpRule : Prop :=
  ∀ (s : State) (i : Word) (d : CoreDescriptor) (wb : Addr), s.ready → s.WrapperReachable i d wb →
    ∃ t es v, exec (.isUp i) s = .next t ∧ t.response = [v, 0#32] ∧
      ((∃ io : Word, io.extractLsb' 0 2 ≠ 1#2 ∧ v = 0#32 ∧
          es = [.memRead .plain (wb + Config.ioCtrl) io]) ∨
       (∃ io r : Word, io.extractLsb' 0 2 = 1#2 ∧ v = (if r.getLsbD 0 then 0#32 else 1#32) ∧
          es = [.memRead .plain (wb + Config.ioCtrl) io, .memRead .plain (wb + Config.resetCtrl) r])) ∧
      t.trace = s.trace ++ s.wrapperEnter i wb ++ es ++ s.wrapperLeave i ∧ t.log = s.log ∧
      s.AfterWrapper i wb t ∧ t.bus.mem = s.bus.mem

/-- CFLAGS and SFLAGS of a core whose wrapper can be reached and that the family guard does not refuse: a masked
read-modify-write of `IOCTRL` and of `IOSTATUS` (R355, R356). -/
def Obligations.FlagsRule : Prop :=
  ∀ (s : State) (i mask value : Word) (d : CoreDescriptor) (wb : Addr), s.ready →
    s.WrapperReachable i d wb → (s.cfg.family, d.coreId) ∉ s.params.guardRefuses →
    (∃ t es v, exec (.cflags i mask value) s = .next t ∧ t.response = [v, 0#32] ∧
      IsRmw .plain (wb + Config.ioCtrl) mask value es v ∧
      t.trace = s.trace ++ s.wrapperEnter i wb ++ es ++ s.wrapperLeave i ∧ t.log = s.log ∧
      s.AfterWrapper i wb t ∧ s.SameMemoryOutside [wb + Config.ioCtrl] t ∧
      (mask ||| value = 0#32 → t.bus.mem = s.bus.mem)) ∧
    (∃ t es v, exec (.sflags i mask value) s = .next t ∧ t.response = [v, 0#32] ∧
      IsRmw .plain (wb + Config.ioStatus) mask value es v ∧
      t.trace = s.trace ++ s.wrapperEnter i wb ++ es ++ s.wrapperLeave i ∧ t.log = s.log ∧
      s.AfterWrapper i wb t ∧ s.SameMemoryOutside [wb + Config.ioStatus] t ∧
      (mask ||| value = 0#32 → t.bus.mem = s.bus.mem))

/-- The checks before a wrapper is touched: a core with no wrapper, or any core through one window, is a
RangeError for the five lifecycle commands (R341 (b), (c)); then the family guard refuses CFLAGS and SFLAGS
with GuardRefusal, a log entry and no event (R354). -/
def Obligations.WrapperChecks : Prop :=
  ∀ (s : State) (i : Word) (d : CoreDescriptor), s.ready → s.table[i.toNat]? = some d →
    (d.wrapperAddr = none ∨ s.cfg.transport ≠ .flat ∧ s.cfg.windowCount = 1 →
      (∀ b, exec (.disable i b) s = .next (s.answers [2#32])) ∧
      (∀ b r, exec (.reset i b r) s = .next (s.answers [2#32])) ∧
      exec (.isUp i) s = .next (s.answers [0#32, 2#32]) ∧
      (∀ m v, exec (.cflags i m v) s = .next (s.answers [0#32, 2#32])) ∧
      (∀ m v, exec (.sflags i m v) s = .next (s.answers [0#32, 2#32]))) ∧
    (d.wrapperAddr ≠ none → (s.cfg.transport = .flat ∨ s.cfg.windowCount ≠ 1) →
      (s.cfg.family, d.coreId) ∈ s.params.guardRefuses →
      ∀ m v,
        exec (.cflags i m v) s =
          .next { s.answers [0#32, 5#32] with log := s.log ++ [.guardRefusal i] } ∧
        exec (.sflags i m v) s =
          .next { s.answers [0#32, 5#32] with log := s.log ++ [.guardRefusal i] })

/-- Disable idempotence (R347): on the reference device of D35, which knows the wrappers (log 3; memory in its
canonical form), after each of two DISABLEs in a row IS_UP answers 0, and the second makes one bus access, the read
of `RESETCTRL`. -/
def Obligations.DisableIdempotent : Prop :=
  ∀ (s : State) (i b : Word) (d : CoreDescriptor) (wb : Addr) (pages : List (BitVec 52)), s.ready →
    s.onReference pages → s.wrappersIn pages → s.bus.mem.wf → s.WrapperReachable i d wb →
    ∃ t u v1 v2, exec (.disable i b) s = .next t ∧ exec (.disable i b) t = .next u ∧
      exec (.isUp i) t = .next v1 ∧ v1.response = [0#32, 0#32] ∧
      exec (.isUp i) u = .next v2 ∧ v2.response = [0#32, 0#32] ∧
      (∃ r, u.commandTrace.filter (fun e => e.accessed.isSome) =
        [.memRead .plain (wb + Config.resetCtrl) r])

/-- Reset brings a core up (R348): on the reference device of D35, which knows the wrappers (log 3; memory in its
canonical form), with a retry to clear the reset bit in and `ioBits[1] = 0`, IS_UP answers 1 after RESET. -/
def Obligations.ResetBringsUp : Prop :=
  ∀ (s : State) (i io ro : Word) (d : CoreDescriptor) (wb : Addr) (pages : List (BitVec 52)), s.ready →
    s.onReference pages → s.wrappersIn pages → s.bus.mem.wf → s.WrapperReachable i d wb → 0 < s.params.resetRetries → io.getLsbD 1 = false →
    ∃ t u, exec (.reset i io ro) s = .next t ∧ t.response = [0#32] ∧
      exec (.isUp i) t = .next u ∧ u.response = [1#32, 0#32]

/-- The worst case of RESET's reads, whatever the bus answers (R358), for poll bounds of at least one. -/
def Obligations.ResetReadsBounded : Prop :=
  ∀ (s : State) (i io ro : Word) (t : State), exec (.reset i io ro) s = .next t →
    0 < s.params.shortPolls → 0 < s.params.longPolls →
    (t.commandTrace.filter Event.isRead).length ≤
      (s.params.shortPolls + s.params.longPolls) + 2 * s.params.shortPolls +
        s.params.resetRetries * (s.params.shortPolls + 1) + 1

/-- The lifecycle state of core i (R58) and its transitions (R357). The state is the function R58 gives of a RESET
in progress and of what the core's `RESETCTRL` and `IOCTRL` read; a RESET runs its events with the core Resetting;
to the block a core is Unknown until it has read one of those registers after ATTACH (R58, R470). A reset bit that
stays stuck leaves Disabled, on any bus. On the reference device of D35, which knows the wrappers: DISABLE leads to
Disabled, and from it makes no write; RESET leads to Enabled, under R348's conditions; CFLAGS clearing `CLOCK_EN` or
setting `FORCE_CLOCK` leads from Enabled to Unknown; IS_UP, SFLAGS and ACCESS_REGISTER, of another register than
those two, change nothing. Where the two readings of R58 part is log 29 (DESIGN CHOICE); the device is log 3. -/
def Obligations.LifecycleStates : Prop :=
  (∀ (s : State) (i : Word) (d : CoreDescriptor) (wb : Addr), s.table[i.toNat]? = some d →
    d.wrapperAddr = some wb →
    let rc : Word := s.busAnswer (wb + 0x800#64)
    let io : Word := s.busAnswer (wb + 0x408#64)
    s.lifecycle i =
      (if s.resetting = some i then .resetting
       else if rc.getLsbD 0 then .disabled
       else if io.getLsbD 0 && !io.getLsbD 1 then .enabled
       else .unknown) ∧
    (s.resetting = none →
      (∀ path pa v, .memRead path pa v ∈ s.trace.drop s.attachMark →
        pa ≠ wb + 0x800#64 ∧ pa ≠ wb + 0x408#64) →
      s.knownLifecycle i = .unknown) ∧
    ((∃ path v, .memRead path (wb + 0x800#64) v ∈ s.trace.drop s.attachMark ∨
        .memRead path (wb + 0x408#64) v ∈ s.trace.drop s.attachMark) →
      s.knownLifecycle i = s.lifecycle i)) ∧
  (∀ (s : State) (i : Word) (d : CoreDescriptor) (wb : Addr), s.ready → s.resetting = none →
    s.WrapperReachable i d wb →
    (∀ io ro, ∃ t, exec (.reset i io ro) s = .next t ∧ t.resetting = none ∧
      ({ s.begin with resetting := some i }).lifecycle i = .resetting ∧
      t = State.respond [0#32] { (State.withWrapper i wb (resetBody io ro wb)
        { s.begin with resetting := some i }).2 with resetting := none } ∧
      ((t.busAnswer (wb + 0x800#64)).getLsbD 0 = true → t.lifecycle i = .disabled))) ∧
  ∀ (s : State) (i : Word) (d : CoreDescriptor) (wb : Addr) (pages : List (BitVec 52)), s.ready →
    s.resetting = none → s.onReference pages → s.wrappersIn pages → s.bus.mem.wf → s.WrapperReachable i d wb →
    (∀ b, ∃ t, exec (.disable i b) s = .next t ∧ t.lifecycle i = .disabled ∧
      (s.lifecycle i = .disabled → ∀ e ∈ t.commandTrace, e.isWrite = false)) ∧
    (∀ io ro, ∃ t, exec (.reset i io ro) s = .next t ∧
      (0 < s.params.resetRetries → io.getLsbD 1 = false → t.lifecycle i = .enabled) ∧
      (s.params.resetRetries = 0 → t.lifecycle i = .disabled)) ∧
    (∀ mask value t, s.lifecycle i = .enabled → (s.cfg.family, d.coreId) ∉ s.params.guardRefuses →
      (mask.getLsbD 0 = true ∧ value.getLsbD 0 = false) ∨ value.getLsbD 1 = true →
      exec (.cflags i mask value) s = .next t → t.lifecycle i = .unknown) ∧
    (∀ t, exec (.isUp i) s = .next t → t.lifecycle i = s.lifecycle i) ∧
    (∀ mask value t, exec (.sflags i mask value) s = .next t → t.lifecycle i = s.lifecycle i) ∧
    (∀ j dj off mask value t, s.table[j.toNat]? = some dj → WordAligned dj.primaryAddr →
      dj.primaryAddr + zext64 off ≠ wb + 0x800#64 → dj.primaryAddr + zext64 off ≠ wb + 0x408#64 →
      exec (.accessRegister j off mask value) s = .next t → t.lifecycle i = s.lifecycle i)

/-- Every step changes the interrupt mask not at all, or once on and once off in its own events with the state
it saved, and leaves no mask state outstanding that was not (R56). -/
def Obligations.InterruptsRestored : Prop :=
  ∀ s t : State, step s = .next t → s.irqSaved = none →
    t.irqSaved = none ∧ ∃ es, t.trace = s.trace ++ es ∧
      ((∀ e ∈ es, e.isIrq = false) ∨
       ∃ saved mid, es = .irqMask saved :: mid ++ [.irqRestore saved] ∧ ∀ e ∈ mid, e.isIrq = false)

/-! ## The backplane timeout monitor -/

/-- ARM_TIMEOUTS on Flat maps each bridge and writes its `ERRLOGCTRL`, in order, and changes nothing else; on a
windowed transport it answers RangeError (R390, R391). -/
def Obligations.ArmTimeoutsRule : Prop :=
  ∀ s : State, s.ready →
    (s.cfg.transport = .flat →
      let es : List Event := s.bws.flatMap (fun b => [.map b 0x1000#64,
        .memWrite .plain (b + 0x900#64) ((1#32 <<< 9) ||| ((s.params.timeoutExp <<< 4) &&& 0x1F0#32))])
      ∃ t, exec .armTimeouts s = .next t ∧
        t = { s.answers [0#32] with trace := s.trace ++ es
                                    bus := { s.bus with mem := replay es s.bus.mem } } ∧
        s.SameMemoryOutside (s.bws.map (· + 0x900#64)) t) ∧
    (s.cfg.transport ≠ .flat → exec .armTimeouts s = .next (s.answers [2#32]))

/-- CLEAR_TIMEOUT on Flat handles each bridge in order as R392 to R395 say, answers whether one is left in error
with the status of R396, and logs each such bridge; on a windowed transport it answers RangeError (R390). -/
def Obligations.ClearTimeoutSequence : Prop :=
  ∀ s : State, s.ready →
    (s.cfg.transport = .flat → ∃ t es left, exec .clearTimeout s = .next t ∧
      IsClearBridges s.params.ackPolls s.bws es left ∧ t.trace = s.trace ++ es ∧
      t.response = (if left = [] then [0#32, 0#32] else [1#32, 4#32]) ∧
      t.log = s.log ++ left.map .timeoutFatal ∧ s.SameSession t ∧ s.SameFocus t ∧
      t.mapReg = s.mapReg ∧ t.mapWrap = s.mapWrap ∧
      s.SameMemoryOutside
        (s.bws.map (· + Config.errLogDone) ++ s.bws.map (· + Config.resetCtrl)) t) ∧
    (s.cfg.transport ≠ .flat → exec .clearTimeout s = .next (s.answers [0#32, 2#32]))

/-- Scenario D (R397), whatever answers the reads: a bridge that reports a timeout and whose acknowledgement is seen
on the first poll gets one acknowledge write and one reset pulse, each write followed at once by a read, and no
timeout remains. What is assumed of the bus is that it answers the two reads of `ERRLOGSTATUS`, each given the
events before it (`reported`, `acked`), with the status 2 and then 0. -/
def Obligations.ScenarioD : Prop :=
  ∀ (s : State) (b : Addr), s.ready → s.cfg.transport = .flat → s.bws = [b] → 0 < s.params.ackPolls →
    let status : Addr := b + 0x908#64
    let reported : State := { s with trace := s.trace ++ [.map b 0x1000#64] }
    let v0 : Word := reported.busAnswer status
    let acked : State := { s with
      trace := s.trace ++ [.map b 0x1000#64, .memRead .plain status v0, .memWrite .plain (b + 0x904#64) 3#32]
      bus := { s.bus with script := s.bus.script.eraseP (fun e => e.1 == status)
                          mem := s.bus.mem.writeWord (b + 0x904#64) 3#32 } }
    let v1 : Word := acked.busAnswer status
    v0.extractLsb' 0 2 = 2#2 → v1.extractLsb' 0 2 = 0#2 →
    ∃ t x y, exec .clearTimeout s = .next t ∧ t.response = [0#32, 0#32] ∧
      t.commandTrace = [.map b 0x1000#64, .memRead .plain (b + 0x908#64) v0,
        .memWrite .plain (b + 0x904#64) 3#32, .memRead .plain (b + 0x908#64) v1,
        .memWrite .plain (b + 0x800#64) 1#32, .memRead .plain (b + 0x800#64) x,
        .memWrite .plain (b + 0x800#64) 0#32, .memRead .plain (b + 0x800#64) y]

/-! ## Memory, the bus, and the invariant -/

/-- A word reads back as it was written, and a write changes no byte outside its word. -/
def Obligations.MemoryReadAfterWrite : Prop :=
  ∀ (m : Memory) (pa : Addr) (v : Word), m.wf →
    (m.writeWord pa v).readWord pa = v ∧
    ∀ a : Nat, a ∉ wordBytes pa → (m.writeWord pa v).readByte a = m.readByte a

/-- The trace accounts for what a step does outside the block: memory is the writes replayed, each window is at
the last base programmed, and nothing else of the bus but the test script changes (R11, R51, R59). -/
def Obligations.TraceAccountsForBus : Prop :=
  ∀ s t : State, step s = .next t →
    ∃ es, t.trace = s.trace ++ es ∧ t.bus.mem = replay es s.bus.mem ∧
      t.winReg = lastBase Event.regBase es s.winReg ∧ t.winWrap = lastBase Event.wrapBase es s.winWrap ∧
      t.bus.device = s.bus.device ∧ t.params = s.params

/-- Every read is answered: by the oracle of R464 from the events before it; and on the reference device of D35, over
its wrapper and bridge pages, with 0 for a `RESETSTATUS` or an `ERRLOGSTATUS`, for which there is no script, and with
the word last written there for any other location. That the oracle is a function of the trace, and what the device
answers where D35's script says nothing, are log 3 (DESIGN CHOICE). -/
def Obligations.ReadsAreAnswered : Prop :=
  ∀ s t : State, step s = .next t →
    (s.onOracle → t.onOracle ∧ (Answered s.trace → Answered t.trace)) ∧
    ∀ pages, s.onReference pages → t.onReference pages ∧
      ∀ (es before after : List Event) (path : AccessPath) (pa : Addr) (v : Word),
        t.trace = s.trace ++ es → es = before ++ .memRead path pa v :: after →
        ((∃ p ∈ pages, pa = pageBase p + 0x804#64 ∨ pa = pageBase p + 0x908#64) → v = 0#32) ∧
        ((∀ p ∈ pages, pa ≠ pageBase p + 0x804#64 ∧ pa ≠ pageBase p + 0x908#64) →
          v = (replay before s.bus.mem).readWord pa)

/-- Every bus access of a step is at a multiple of 4, and through a window of a windowed transport at an offset
below its size, a multiple of 4, from the last base programmed (R75, R80); an access past the windows is tagged
FAST, which only a windowed transport does (R81). On a Legacy bus the addresses are aligned because its parameters
are word numbers (log 8, DESIGN CHOICE). -/
def Obligations.AccessesAligned : Prop :=
  ∀ (s t : State) (before after : List Event) (path : AccessPath) (pa : Addr) (v : Word), s.Inv →
    step s = .next t →
    (t.trace = s.trace ++ before ++ .memRead path pa v :: after ∨
     t.trace = s.trace ++ before ++ .memWrite path pa v :: after) →
    AccessOk s.flat s.winReg s.winWrap before path pa

/-- Every step keeps the invariant of the block: the table bounded, dense and empty after a ParseError, the
focus a row that the record, the windows and the caches agree with, every address an access is made from a multiple
of 4, no RESET in progress and no mask outstanding, a scan in progress as its prologue left it, memory canonical
(R36, R37, R42, R43, R56, R75, R225, R256). -/
def Obligations.StepKeepsInvariant : Prop :=
  ∀ s t : State, s.Inv → step s = .next t → t.Inv

/-- The invariant holds right after reset. -/
def Obligations.ResetHasInvariant : Prop := State.reset.Inv
end

