-- ==== Sys2Proof/Laws/State.lean ====
section
/-! SUPPORT. What each update of the state does to each field, one lemma per field per update. -/

namespace Sys2Proof.Machine

/-! ## Values returned -/

@[simp] theorem memRead_fst (p : AccessPath) (a : Addr) (s : State) : (s.memRead p a).1 = s.busAnswer a := rfl
@[simp] theorem irqMask_fst (s : State) : s.irqMask.1 = Config.irqSaved s.trace := rfl

/-! ## emit -/

@[simp] theorem emit_attached (e : Event) (s : State) : (s.emit e).attached = s.attached := rfl
@[simp] theorem emit_busy (e : Event) (s : State) : (s.emit e).busy = s.busy := rfl
@[simp] theorem emit_cfg (e : Event) (s : State) : (s.emit e).cfg = s.cfg := rfl
@[simp] theorem emit_table (e : Event) (s : State) : (s.emit e).table = s.table := rfl
@[simp] theorem emit_bws (e : Event) (s : State) : (s.emit e).bws = s.bws := rfl
@[simp] theorem emit_oob (e : Event) (s : State) : (s.emit e).oob = s.oob := rfl
@[simp] theorem emit_focus (e : Event) (s : State) : (s.emit e).focus = s.focus := rfl
@[simp] theorem emit_mapReg (e : Event) (s : State) : (s.emit e).mapReg = s.mapReg := rfl
@[simp] theorem emit_mapWrap (e : Event) (s : State) : (s.emit e).mapWrap = s.mapWrap := rfl
@[simp] theorem emit_scanStatus (e : Event) (s : State) : (s.emit e).scanStatus = s.scanStatus := rfl
@[simp] theorem emit_scan (e : Event) (s : State) : (s.emit e).scan = s.scan := rfl
@[simp] theorem emit_winReg (e : Event) (s : State) : (s.emit e).winReg = s.winReg := rfl
@[simp] theorem emit_winWrap (e : Event) (s : State) : (s.emit e).winWrap = s.winWrap := rfl
@[simp] theorem emit_irqSaved (e : Event) (s : State) : (s.emit e).irqSaved = s.irqSaved := rfl
@[simp] theorem emit_bus (e : Event) (s : State) : (s.emit e).bus = s.bus := rfl
@[simp] theorem emit_trace (e : Event) (s : State) : (s.emit e).trace = s.trace ++ [e] := rfl
@[simp] theorem emit_traceMark (e : Event) (s : State) : (s.emit e).traceMark = s.traceMark := rfl
@[simp] theorem emit_resetting (e : Event) (s : State) : (s.emit e).resetting = s.resetting := rfl
@[simp] theorem emit_attachMark (e : Event) (s : State) : (s.emit e).attachMark = s.attachMark := rfl
@[simp] theorem emit_log (e : Event) (s : State) : (s.emit e).log = s.log := rfl
@[simp] theorem emit_response (e : Event) (s : State) : (s.emit e).response = s.response := rfl
@[simp] theorem emit_commands (e : Event) (s : State) : (s.emit e).commands = s.commands := rfl
@[simp] theorem emit_params (e : Event) (s : State) : (s.emit e).params = s.params := rfl

/-! ## logEntry -/

@[simp] theorem logEntry_attached (e : LogEntry) (s : State) : (s.logEntry e).attached = s.attached := rfl
@[simp] theorem logEntry_busy (e : LogEntry) (s : State) : (s.logEntry e).busy = s.busy := rfl
@[simp] theorem logEntry_cfg (e : LogEntry) (s : State) : (s.logEntry e).cfg = s.cfg := rfl
@[simp] theorem logEntry_table (e : LogEntry) (s : State) : (s.logEntry e).table = s.table := rfl
@[simp] theorem logEntry_bws (e : LogEntry) (s : State) : (s.logEntry e).bws = s.bws := rfl
@[simp] theorem logEntry_oob (e : LogEntry) (s : State) : (s.logEntry e).oob = s.oob := rfl
@[simp] theorem logEntry_focus (e : LogEntry) (s : State) : (s.logEntry e).focus = s.focus := rfl
@[simp] theorem logEntry_mapReg (e : LogEntry) (s : State) : (s.logEntry e).mapReg = s.mapReg := rfl
@[simp] theorem logEntry_mapWrap (e : LogEntry) (s : State) : (s.logEntry e).mapWrap = s.mapWrap := rfl
@[simp] theorem logEntry_scanStatus (e : LogEntry) (s : State) :
    (s.logEntry e).scanStatus = s.scanStatus := rfl
@[simp] theorem logEntry_scan (e : LogEntry) (s : State) : (s.logEntry e).scan = s.scan := rfl
@[simp] theorem logEntry_winReg (e : LogEntry) (s : State) : (s.logEntry e).winReg = s.winReg := rfl
@[simp] theorem logEntry_winWrap (e : LogEntry) (s : State) : (s.logEntry e).winWrap = s.winWrap := rfl
@[simp] theorem logEntry_irqSaved (e : LogEntry) (s : State) : (s.logEntry e).irqSaved = s.irqSaved := rfl
@[simp] theorem logEntry_bus (e : LogEntry) (s : State) : (s.logEntry e).bus = s.bus := rfl
@[simp] theorem logEntry_trace (e : LogEntry) (s : State) : (s.logEntry e).trace = s.trace := rfl
@[simp] theorem logEntry_traceMark (e : LogEntry) (s : State) : (s.logEntry e).traceMark = s.traceMark := rfl
@[simp] theorem logEntry_resetting (e : LogEntry) (s : State) : (s.logEntry e).resetting = s.resetting := rfl
@[simp] theorem logEntry_attachMark (e : LogEntry) (s : State) : (s.logEntry e).attachMark = s.attachMark := rfl
@[simp] theorem logEntry_log (e : LogEntry) (s : State) : (s.logEntry e).log = s.log ++ [e] := rfl
@[simp] theorem logEntry_response (e : LogEntry) (s : State) : (s.logEntry e).response = s.response := rfl
@[simp] theorem logEntry_commands (e : LogEntry) (s : State) : (s.logEntry e).commands = s.commands := rfl
@[simp] theorem logEntry_params (e : LogEntry) (s : State) : (s.logEntry e).params = s.params := rfl

/-! ## memRead -/

@[simp] theorem memRead_attached (p : AccessPath) (a : Addr) (s : State) :
    (s.memRead p a).2.attached = s.attached := rfl
@[simp] theorem memRead_busy (p : AccessPath) (a : Addr) (s : State) : (s.memRead p a).2.busy = s.busy := rfl
@[simp] theorem memRead_cfg (p : AccessPath) (a : Addr) (s : State) : (s.memRead p a).2.cfg = s.cfg := rfl
@[simp] theorem memRead_table (p : AccessPath) (a : Addr) (s : State) :
    (s.memRead p a).2.table = s.table := rfl
@[simp] theorem memRead_bws (p : AccessPath) (a : Addr) (s : State) : (s.memRead p a).2.bws = s.bws := rfl
@[simp] theorem memRead_oob (p : AccessPath) (a : Addr) (s : State) : (s.memRead p a).2.oob = s.oob := rfl
@[simp] theorem memRead_focus (p : AccessPath) (a : Addr) (s : State) :
    (s.memRead p a).2.focus = s.focus := rfl
@[simp] theorem memRead_mapReg (p : AccessPath) (a : Addr) (s : State) :
    (s.memRead p a).2.mapReg = s.mapReg := rfl
@[simp] theorem memRead_mapWrap (p : AccessPath) (a : Addr) (s : State) :
    (s.memRead p a).2.mapWrap = s.mapWrap := rfl
@[simp] theorem memRead_scanStatus (p : AccessPath) (a : Addr) (s : State) :
    (s.memRead p a).2.scanStatus = s.scanStatus := rfl
@[simp] theorem memRead_scan (p : AccessPath) (a : Addr) (s : State) : (s.memRead p a).2.scan = s.scan := rfl
@[simp] theorem memRead_winReg (p : AccessPath) (a : Addr) (s : State) :
    (s.memRead p a).2.winReg = s.winReg := rfl
@[simp] theorem memRead_winWrap (p : AccessPath) (a : Addr) (s : State) :
    (s.memRead p a).2.winWrap = s.winWrap := rfl
@[simp] theorem memRead_irqSaved (p : AccessPath) (a : Addr) (s : State) :
    (s.memRead p a).2.irqSaved = s.irqSaved := rfl
@[simp] theorem memRead_bus (p : AccessPath) (a : Addr) (s : State) :
    (s.memRead p a).2.bus = { s.bus with script := s.bus.script.eraseP (fun e => e.1 == a) } := rfl
@[simp] theorem memRead_trace (p : AccessPath) (a : Addr) (s : State) :
    (s.memRead p a).2.trace = s.trace ++ [.memRead p a (s.busAnswer a)] := rfl
@[simp] theorem memRead_traceMark (p : AccessPath) (a : Addr) (s : State) :
    (s.memRead p a).2.traceMark = s.traceMark := rfl
@[simp] theorem memRead_resetting (p : AccessPath) (a : Addr) (s : State) :
    (s.memRead p a).2.resetting = s.resetting := rfl
@[simp] theorem memRead_attachMark (p : AccessPath) (a : Addr) (s : State) :
    (s.memRead p a).2.attachMark = s.attachMark := rfl
@[simp] theorem memRead_log (p : AccessPath) (a : Addr) (s : State) : (s.memRead p a).2.log = s.log := rfl
@[simp] theorem memRead_response (p : AccessPath) (a : Addr) (s : State) :
    (s.memRead p a).2.response = s.response := rfl
@[simp] theorem memRead_commands (p : AccessPath) (a : Addr) (s : State) :
    (s.memRead p a).2.commands = s.commands := rfl
@[simp] theorem memRead_params (p : AccessPath) (a : Addr) (s : State) :
    (s.memRead p a).2.params = s.params := rfl

/-! ## memWrite -/

@[simp] theorem memWrite_attached (p : AccessPath) (a : Addr) (v : Word) (s : State) :
    (s.memWrite p a v).attached = s.attached := rfl
@[simp] theorem memWrite_busy (p : AccessPath) (a : Addr) (v : Word) (s : State) :
    (s.memWrite p a v).busy = s.busy := rfl
@[simp] theorem memWrite_cfg (p : AccessPath) (a : Addr) (v : Word) (s : State) :
    (s.memWrite p a v).cfg = s.cfg := rfl
@[simp] theorem memWrite_table (p : AccessPath) (a : Addr) (v : Word) (s : State) :
    (s.memWrite p a v).table = s.table := rfl
@[simp] theorem memWrite_bws (p : AccessPath) (a : Addr) (v : Word) (s : State) :
    (s.memWrite p a v).bws = s.bws := rfl
@[simp] theorem memWrite_oob (p : AccessPath) (a : Addr) (v : Word) (s : State) :
    (s.memWrite p a v).oob = s.oob := rfl
@[simp] theorem memWrite_focus (p : AccessPath) (a : Addr) (v : Word) (s : State) :
    (s.memWrite p a v).focus = s.focus := rfl
@[simp] theorem memWrite_mapReg (p : AccessPath) (a : Addr) (v : Word) (s : State) :
    (s.memWrite p a v).mapReg = s.mapReg := rfl
@[simp] theorem memWrite_mapWrap (p : AccessPath) (a : Addr) (v : Word) (s : State) :
    (s.memWrite p a v).mapWrap = s.mapWrap := rfl
@[simp] theorem memWrite_scanStatus (p : AccessPath) (a : Addr) (v : Word) (s : State) :
    (s.memWrite p a v).scanStatus = s.scanStatus := rfl
@[simp] theorem memWrite_scan (p : AccessPath) (a : Addr) (v : Word) (s : State) :
    (s.memWrite p a v).scan = s.scan := rfl
@[simp] theorem memWrite_winReg (p : AccessPath) (a : Addr) (v : Word) (s : State) :
    (s.memWrite p a v).winReg = s.winReg := rfl
@[simp] theorem memWrite_winWrap (p : AccessPath) (a : Addr) (v : Word) (s : State) :
    (s.memWrite p a v).winWrap = s.winWrap := rfl
@[simp] theorem memWrite_irqSaved (p : AccessPath) (a : Addr) (v : Word) (s : State) :
    (s.memWrite p a v).irqSaved = s.irqSaved := rfl
@[simp] theorem memWrite_bus (p : AccessPath) (a : Addr) (v : Word) (s : State) :
    (s.memWrite p a v).bus = { s.bus with mem := s.bus.mem.writeWord a v } := rfl
@[simp] theorem memWrite_trace (p : AccessPath) (a : Addr) (v : Word) (s : State) :
    (s.memWrite p a v).trace = s.trace ++ [.memWrite p a v] := rfl
@[simp] theorem memWrite_traceMark (p : AccessPath) (a : Addr) (v : Word) (s : State) :
    (s.memWrite p a v).traceMark = s.traceMark := rfl
@[simp] theorem memWrite_resetting (p : AccessPath) (a : Addr) (v : Word) (s : State) :
    (s.memWrite p a v).resetting = s.resetting := rfl
@[simp] theorem memWrite_attachMark (p : AccessPath) (a : Addr) (v : Word) (s : State) :
    (s.memWrite p a v).attachMark = s.attachMark := rfl
@[simp] theorem memWrite_log (p : AccessPath) (a : Addr) (v : Word) (s : State) :
    (s.memWrite p a v).log = s.log := rfl
@[simp] theorem memWrite_response (p : AccessPath) (a : Addr) (v : Word) (s : State) :
    (s.memWrite p a v).response = s.response := rfl
@[simp] theorem memWrite_commands (p : AccessPath) (a : Addr) (v : Word) (s : State) :
    (s.memWrite p a v).commands = s.commands := rfl
@[simp] theorem memWrite_params (p : AccessPath) (a : Addr) (v : Word) (s : State) :
    (s.memWrite p a v).params = s.params := rfl

/-! ## winSet reg -/

@[simp] theorem winSet_reg_attached (b : Addr) (s : State) : (s.winSet .reg b).attached = s.attached := rfl
@[simp] theorem winSet_reg_busy (b : Addr) (s : State) : (s.winSet .reg b).busy = s.busy := rfl
@[simp] theorem winSet_reg_cfg (b : Addr) (s : State) : (s.winSet .reg b).cfg = s.cfg := rfl
@[simp] theorem winSet_reg_table (b : Addr) (s : State) : (s.winSet .reg b).table = s.table := rfl
@[simp] theorem winSet_reg_bws (b : Addr) (s : State) : (s.winSet .reg b).bws = s.bws := rfl
@[simp] theorem winSet_reg_oob (b : Addr) (s : State) : (s.winSet .reg b).oob = s.oob := rfl
@[simp] theorem winSet_reg_focus (b : Addr) (s : State) : (s.winSet .reg b).focus = s.focus := rfl
@[simp] theorem winSet_reg_mapReg (b : Addr) (s : State) : (s.winSet .reg b).mapReg = s.mapReg := rfl
@[simp] theorem winSet_reg_mapWrap (b : Addr) (s : State) : (s.winSet .reg b).mapWrap = s.mapWrap := rfl
@[simp] theorem winSet_reg_scanStatus (b : Addr) (s : State) :
    (s.winSet .reg b).scanStatus = s.scanStatus := rfl
@[simp] theorem winSet_reg_scan (b : Addr) (s : State) : (s.winSet .reg b).scan = s.scan := rfl
@[simp] theorem winSet_reg_winReg (b : Addr) (s : State) : (s.winSet .reg b).winReg = b := rfl
@[simp] theorem winSet_reg_winWrap (b : Addr) (s : State) : (s.winSet .reg b).winWrap = s.winWrap := rfl
@[simp] theorem winSet_reg_irqSaved (b : Addr) (s : State) : (s.winSet .reg b).irqSaved = s.irqSaved := rfl
@[simp] theorem winSet_reg_bus (b : Addr) (s : State) : (s.winSet .reg b).bus = s.bus := rfl
@[simp] theorem winSet_reg_trace (b : Addr) (s : State) :
    (s.winSet .reg b).trace = s.trace ++ [.winSet .reg b] := rfl
@[simp] theorem winSet_reg_traceMark (b : Addr) (s : State) : (s.winSet .reg b).traceMark = s.traceMark := rfl
@[simp] theorem winSet_reg_resetting (b : Addr) (s : State) : (s.winSet .reg b).resetting = s.resetting := rfl
@[simp] theorem winSet_reg_attachMark (b : Addr) (s : State) : (s.winSet .reg b).attachMark = s.attachMark := rfl
@[simp] theorem winSet_reg_log (b : Addr) (s : State) : (s.winSet .reg b).log = s.log := rfl
@[simp] theorem winSet_reg_response (b : Addr) (s : State) : (s.winSet .reg b).response = s.response := rfl
@[simp] theorem winSet_reg_commands (b : Addr) (s : State) : (s.winSet .reg b).commands = s.commands := rfl
@[simp] theorem winSet_reg_params (b : Addr) (s : State) : (s.winSet .reg b).params = s.params := rfl

/-! ## winSet wrap -/

@[simp] theorem winSet_wrap_attached (b : Addr) (s : State) : (s.winSet .wrap b).attached = s.attached := rfl
@[simp] theorem winSet_wrap_busy (b : Addr) (s : State) : (s.winSet .wrap b).busy = s.busy := rfl
@[simp] theorem winSet_wrap_cfg (b : Addr) (s : State) : (s.winSet .wrap b).cfg = s.cfg := rfl
@[simp] theorem winSet_wrap_table (b : Addr) (s : State) : (s.winSet .wrap b).table = s.table := rfl
@[simp] theorem winSet_wrap_bws (b : Addr) (s : State) : (s.winSet .wrap b).bws = s.bws := rfl
@[simp] theorem winSet_wrap_oob (b : Addr) (s : State) : (s.winSet .wrap b).oob = s.oob := rfl
@[simp] theorem winSet_wrap_focus (b : Addr) (s : State) : (s.winSet .wrap b).focus = s.focus := rfl
@[simp] theorem winSet_wrap_mapReg (b : Addr) (s : State) : (s.winSet .wrap b).mapReg = s.mapReg := rfl
@[simp] theorem winSet_wrap_mapWrap (b : Addr) (s : State) : (s.winSet .wrap b).mapWrap = s.mapWrap := rfl
@[simp] theorem winSet_wrap_scanStatus (b : Addr) (s : State) :
    (s.winSet .wrap b).scanStatus = s.scanStatus := rfl
@[simp] theorem winSet_wrap_scan (b : Addr) (s : State) : (s.winSet .wrap b).scan = s.scan := rfl
@[simp] theorem winSet_wrap_winReg (b : Addr) (s : State) : (s.winSet .wrap b).winReg = s.winReg := rfl
@[simp] theorem winSet_wrap_winWrap (b : Addr) (s : State) : (s.winSet .wrap b).winWrap = b := rfl
@[simp] theorem winSet_wrap_irqSaved (b : Addr) (s : State) : (s.winSet .wrap b).irqSaved = s.irqSaved := rfl
@[simp] theorem winSet_wrap_bus (b : Addr) (s : State) : (s.winSet .wrap b).bus = s.bus := rfl
@[simp] theorem winSet_wrap_trace (b : Addr) (s : State) :
    (s.winSet .wrap b).trace = s.trace ++ [.winSet .wrap b] := rfl
@[simp] theorem winSet_wrap_traceMark (b : Addr) (s : State) :
    (s.winSet .wrap b).traceMark = s.traceMark := rfl
@[simp] theorem winSet_wrap_resetting (b : Addr) (s : State) :
    (s.winSet .wrap b).resetting = s.resetting := rfl
@[simp] theorem winSet_wrap_attachMark (b : Addr) (s : State) :
    (s.winSet .wrap b).attachMark = s.attachMark := rfl
@[simp] theorem winSet_wrap_log (b : Addr) (s : State) : (s.winSet .wrap b).log = s.log := rfl
@[simp] theorem winSet_wrap_response (b : Addr) (s : State) : (s.winSet .wrap b).response = s.response := rfl
@[simp] theorem winSet_wrap_commands (b : Addr) (s : State) : (s.winSet .wrap b).commands = s.commands := rfl
@[simp] theorem winSet_wrap_params (b : Addr) (s : State) : (s.winSet .wrap b).params = s.params := rfl

/-! ## map -/

@[simp] theorem map_attached (a n : Addr) (s : State) : (s.map a n).attached = s.attached := rfl
@[simp] theorem map_busy (a n : Addr) (s : State) : (s.map a n).busy = s.busy := rfl
@[simp] theorem map_cfg (a n : Addr) (s : State) : (s.map a n).cfg = s.cfg := rfl
@[simp] theorem map_table (a n : Addr) (s : State) : (s.map a n).table = s.table := rfl
@[simp] theorem map_bws (a n : Addr) (s : State) : (s.map a n).bws = s.bws := rfl
@[simp] theorem map_oob (a n : Addr) (s : State) : (s.map a n).oob = s.oob := rfl
@[simp] theorem map_focus (a n : Addr) (s : State) : (s.map a n).focus = s.focus := rfl
@[simp] theorem map_mapReg (a n : Addr) (s : State) : (s.map a n).mapReg = s.mapReg := rfl
@[simp] theorem map_mapWrap (a n : Addr) (s : State) : (s.map a n).mapWrap = s.mapWrap := rfl
@[simp] theorem map_scanStatus (a n : Addr) (s : State) : (s.map a n).scanStatus = s.scanStatus := rfl
@[simp] theorem map_scan (a n : Addr) (s : State) : (s.map a n).scan = s.scan := rfl
@[simp] theorem map_winReg (a n : Addr) (s : State) : (s.map a n).winReg = s.winReg := rfl
@[simp] theorem map_winWrap (a n : Addr) (s : State) : (s.map a n).winWrap = s.winWrap := rfl
@[simp] theorem map_irqSaved (a n : Addr) (s : State) : (s.map a n).irqSaved = s.irqSaved := rfl
@[simp] theorem map_bus (a n : Addr) (s : State) : (s.map a n).bus = s.bus := rfl
@[simp] theorem map_trace (a n : Addr) (s : State) : (s.map a n).trace = s.trace ++ [.map a n] := rfl
@[simp] theorem map_traceMark (a n : Addr) (s : State) : (s.map a n).traceMark = s.traceMark := rfl
@[simp] theorem map_resetting (a n : Addr) (s : State) : (s.map a n).resetting = s.resetting := rfl
@[simp] theorem map_attachMark (a n : Addr) (s : State) : (s.map a n).attachMark = s.attachMark := rfl
@[simp] theorem map_log (a n : Addr) (s : State) : (s.map a n).log = s.log := rfl
@[simp] theorem map_response (a n : Addr) (s : State) : (s.map a n).response = s.response := rfl
@[simp] theorem map_commands (a n : Addr) (s : State) : (s.map a n).commands = s.commands := rfl
@[simp] theorem map_params (a n : Addr) (s : State) : (s.map a n).params = s.params := rfl

/-! ## delay -/

@[simp] theorem delay_attached (n : Nat) (s : State) : (s.delay n).attached = s.attached := rfl
@[simp] theorem delay_busy (n : Nat) (s : State) : (s.delay n).busy = s.busy := rfl
@[simp] theorem delay_cfg (n : Nat) (s : State) : (s.delay n).cfg = s.cfg := rfl
@[simp] theorem delay_table (n : Nat) (s : State) : (s.delay n).table = s.table := rfl
@[simp] theorem delay_bws (n : Nat) (s : State) : (s.delay n).bws = s.bws := rfl
@[simp] theorem delay_oob (n : Nat) (s : State) : (s.delay n).oob = s.oob := rfl
@[simp] theorem delay_focus (n : Nat) (s : State) : (s.delay n).focus = s.focus := rfl
@[simp] theorem delay_mapReg (n : Nat) (s : State) : (s.delay n).mapReg = s.mapReg := rfl
@[simp] theorem delay_mapWrap (n : Nat) (s : State) : (s.delay n).mapWrap = s.mapWrap := rfl
@[simp] theorem delay_scanStatus (n : Nat) (s : State) : (s.delay n).scanStatus = s.scanStatus := rfl
@[simp] theorem delay_scan (n : Nat) (s : State) : (s.delay n).scan = s.scan := rfl
@[simp] theorem delay_winReg (n : Nat) (s : State) : (s.delay n).winReg = s.winReg := rfl
@[simp] theorem delay_winWrap (n : Nat) (s : State) : (s.delay n).winWrap = s.winWrap := rfl
@[simp] theorem delay_irqSaved (n : Nat) (s : State) : (s.delay n).irqSaved = s.irqSaved := rfl
@[simp] theorem delay_bus (n : Nat) (s : State) : (s.delay n).bus = s.bus := rfl
@[simp] theorem delay_trace (n : Nat) (s : State) : (s.delay n).trace = s.trace ++ [.delay n] := rfl
@[simp] theorem delay_traceMark (n : Nat) (s : State) : (s.delay n).traceMark = s.traceMark := rfl
@[simp] theorem delay_resetting (n : Nat) (s : State) : (s.delay n).resetting = s.resetting := rfl
@[simp] theorem delay_attachMark (n : Nat) (s : State) : (s.delay n).attachMark = s.attachMark := rfl
@[simp] theorem delay_log (n : Nat) (s : State) : (s.delay n).log = s.log := rfl
@[simp] theorem delay_response (n : Nat) (s : State) : (s.delay n).response = s.response := rfl
@[simp] theorem delay_commands (n : Nat) (s : State) : (s.delay n).commands = s.commands := rfl
@[simp] theorem delay_params (n : Nat) (s : State) : (s.delay n).params = s.params := rfl

/-! ## irqMask -/

@[simp] theorem irqMask_attached (s : State) : s.irqMask.2.attached = s.attached := rfl
@[simp] theorem irqMask_busy (s : State) : s.irqMask.2.busy = s.busy := rfl
@[simp] theorem irqMask_cfg (s : State) : s.irqMask.2.cfg = s.cfg := rfl
@[simp] theorem irqMask_table (s : State) : s.irqMask.2.table = s.table := rfl
@[simp] theorem irqMask_bws (s : State) : s.irqMask.2.bws = s.bws := rfl
@[simp] theorem irqMask_oob (s : State) : s.irqMask.2.oob = s.oob := rfl
@[simp] theorem irqMask_focus (s : State) : s.irqMask.2.focus = s.focus := rfl
@[simp] theorem irqMask_mapReg (s : State) : s.irqMask.2.mapReg = s.mapReg := rfl
@[simp] theorem irqMask_mapWrap (s : State) : s.irqMask.2.mapWrap = s.mapWrap := rfl
@[simp] theorem irqMask_scanStatus (s : State) : s.irqMask.2.scanStatus = s.scanStatus := rfl
@[simp] theorem irqMask_scan (s : State) : s.irqMask.2.scan = s.scan := rfl
@[simp] theorem irqMask_winReg (s : State) : s.irqMask.2.winReg = s.winReg := rfl
@[simp] theorem irqMask_winWrap (s : State) : s.irqMask.2.winWrap = s.winWrap := rfl
@[simp] theorem irqMask_irqSaved (s : State) : s.irqMask.2.irqSaved = some (Config.irqSaved s.trace) := rfl
@[simp] theorem irqMask_bus (s : State) : s.irqMask.2.bus = s.bus := rfl
@[simp] theorem irqMask_trace (s : State) :
    s.irqMask.2.trace = s.trace ++ [.irqMask (Config.irqSaved s.trace)] := rfl
@[simp] theorem irqMask_traceMark (s : State) : s.irqMask.2.traceMark = s.traceMark := rfl
@[simp] theorem irqMask_resetting (s : State) : s.irqMask.2.resetting = s.resetting := rfl
@[simp] theorem irqMask_attachMark (s : State) : s.irqMask.2.attachMark = s.attachMark := rfl
@[simp] theorem irqMask_log (s : State) : s.irqMask.2.log = s.log := rfl
@[simp] theorem irqMask_response (s : State) : s.irqMask.2.response = s.response := rfl
@[simp] theorem irqMask_commands (s : State) : s.irqMask.2.commands = s.commands := rfl
@[simp] theorem irqMask_params (s : State) : s.irqMask.2.params = s.params := rfl

/-! ## irqRestore -/

@[simp] theorem irqRestore_attached (n : Nat) (s : State) : (s.irqRestore n).attached = s.attached := rfl
@[simp] theorem irqRestore_busy (n : Nat) (s : State) : (s.irqRestore n).busy = s.busy := rfl
@[simp] theorem irqRestore_cfg (n : Nat) (s : State) : (s.irqRestore n).cfg = s.cfg := rfl
@[simp] theorem irqRestore_table (n : Nat) (s : State) : (s.irqRestore n).table = s.table := rfl
@[simp] theorem irqRestore_bws (n : Nat) (s : State) : (s.irqRestore n).bws = s.bws := rfl
@[simp] theorem irqRestore_oob (n : Nat) (s : State) : (s.irqRestore n).oob = s.oob := rfl
@[simp] theorem irqRestore_focus (n : Nat) (s : State) : (s.irqRestore n).focus = s.focus := rfl
@[simp] theorem irqRestore_mapReg (n : Nat) (s : State) : (s.irqRestore n).mapReg = s.mapReg := rfl
@[simp] theorem irqRestore_mapWrap (n : Nat) (s : State) : (s.irqRestore n).mapWrap = s.mapWrap := rfl
@[simp] theorem irqRestore_scanStatus (n : Nat) (s : State) :
    (s.irqRestore n).scanStatus = s.scanStatus := rfl
@[simp] theorem irqRestore_scan (n : Nat) (s : State) : (s.irqRestore n).scan = s.scan := rfl
@[simp] theorem irqRestore_winReg (n : Nat) (s : State) : (s.irqRestore n).winReg = s.winReg := rfl
@[simp] theorem irqRestore_winWrap (n : Nat) (s : State) : (s.irqRestore n).winWrap = s.winWrap := rfl
@[simp] theorem irqRestore_irqSaved (n : Nat) (s : State) : (s.irqRestore n).irqSaved = none := rfl
@[simp] theorem irqRestore_bus (n : Nat) (s : State) : (s.irqRestore n).bus = s.bus := rfl
@[simp] theorem irqRestore_trace (n : Nat) (s : State) :
    (s.irqRestore n).trace = s.trace ++ [.irqRestore n] := rfl
@[simp] theorem irqRestore_traceMark (n : Nat) (s : State) : (s.irqRestore n).traceMark = s.traceMark := rfl
@[simp] theorem irqRestore_resetting (n : Nat) (s : State) : (s.irqRestore n).resetting = s.resetting := rfl
@[simp] theorem irqRestore_attachMark (n : Nat) (s : State) : (s.irqRestore n).attachMark = s.attachMark := rfl
@[simp] theorem irqRestore_log (n : Nat) (s : State) : (s.irqRestore n).log = s.log := rfl
@[simp] theorem irqRestore_response (n : Nat) (s : State) : (s.irqRestore n).response = s.response := rfl
@[simp] theorem irqRestore_commands (n : Nat) (s : State) : (s.irqRestore n).commands = s.commands := rfl
@[simp] theorem irqRestore_params (n : Nat) (s : State) : (s.irqRestore n).params = s.params := rfl

/-! ## begin -/

@[simp] theorem begin_attached (s : State) : s.begin.attached = s.attached := rfl
@[simp] theorem begin_busy (s : State) : s.begin.busy = s.busy := rfl
@[simp] theorem begin_cfg (s : State) : s.begin.cfg = s.cfg := rfl
@[simp] theorem begin_table (s : State) : s.begin.table = s.table := rfl
@[simp] theorem begin_bws (s : State) : s.begin.bws = s.bws := rfl
@[simp] theorem begin_oob (s : State) : s.begin.oob = s.oob := rfl
@[simp] theorem begin_focus (s : State) : s.begin.focus = s.focus := rfl
@[simp] theorem begin_mapReg (s : State) : s.begin.mapReg = s.mapReg := rfl
@[simp] theorem begin_mapWrap (s : State) : s.begin.mapWrap = s.mapWrap := rfl
@[simp] theorem begin_scanStatus (s : State) : s.begin.scanStatus = s.scanStatus := rfl
@[simp] theorem begin_scan (s : State) : s.begin.scan = s.scan := rfl
@[simp] theorem begin_winReg (s : State) : s.begin.winReg = s.winReg := rfl
@[simp] theorem begin_winWrap (s : State) : s.begin.winWrap = s.winWrap := rfl
@[simp] theorem begin_irqSaved (s : State) : s.begin.irqSaved = s.irqSaved := rfl
@[simp] theorem begin_bus (s : State) : s.begin.bus = s.bus := rfl
@[simp] theorem begin_trace (s : State) : s.begin.trace = s.trace := rfl
@[simp] theorem begin_traceMark (s : State) : s.begin.traceMark = s.trace.length := rfl
@[simp] theorem begin_resetting (s : State) : s.begin.resetting = s.resetting := rfl
@[simp] theorem begin_attachMark (s : State) : s.begin.attachMark = s.attachMark := rfl
@[simp] theorem begin_log (s : State) : s.begin.log = s.log := rfl
@[simp] theorem begin_response (s : State) : s.begin.response = [] := rfl
@[simp] theorem begin_commands (s : State) : s.begin.commands = s.commands := rfl
@[simp] theorem begin_params (s : State) : s.begin.params = s.params := rfl

/-! ## respond -/

@[simp] theorem respond_attached (ws : List Word) (s : State) : (s.respond ws).attached = s.attached := rfl
@[simp] theorem respond_busy (ws : List Word) (s : State) : (s.respond ws).busy = s.busy := rfl
@[simp] theorem respond_cfg (ws : List Word) (s : State) : (s.respond ws).cfg = s.cfg := rfl
@[simp] theorem respond_table (ws : List Word) (s : State) : (s.respond ws).table = s.table := rfl
@[simp] theorem respond_bws (ws : List Word) (s : State) : (s.respond ws).bws = s.bws := rfl
@[simp] theorem respond_oob (ws : List Word) (s : State) : (s.respond ws).oob = s.oob := rfl
@[simp] theorem respond_focus (ws : List Word) (s : State) : (s.respond ws).focus = s.focus := rfl
@[simp] theorem respond_mapReg (ws : List Word) (s : State) : (s.respond ws).mapReg = s.mapReg := rfl
@[simp] theorem respond_mapWrap (ws : List Word) (s : State) : (s.respond ws).mapWrap = s.mapWrap := rfl
@[simp] theorem respond_scanStatus (ws : List Word) (s : State) :
    (s.respond ws).scanStatus = s.scanStatus := rfl
@[simp] theorem respond_scan (ws : List Word) (s : State) : (s.respond ws).scan = s.scan := rfl
@[simp] theorem respond_winReg (ws : List Word) (s : State) : (s.respond ws).winReg = s.winReg := rfl
@[simp] theorem respond_winWrap (ws : List Word) (s : State) : (s.respond ws).winWrap = s.winWrap := rfl
@[simp] theorem respond_irqSaved (ws : List Word) (s : State) : (s.respond ws).irqSaved = s.irqSaved := rfl
@[simp] theorem respond_bus (ws : List Word) (s : State) : (s.respond ws).bus = s.bus := rfl
@[simp] theorem respond_trace (ws : List Word) (s : State) : (s.respond ws).trace = s.trace := rfl
@[simp] theorem respond_traceMark (ws : List Word) (s : State) : (s.respond ws).traceMark = s.traceMark := rfl
@[simp] theorem respond_resetting (ws : List Word) (s : State) : (s.respond ws).resetting = s.resetting := rfl
@[simp] theorem respond_attachMark (ws : List Word) (s : State) : (s.respond ws).attachMark = s.attachMark := rfl
@[simp] theorem respond_log (ws : List Word) (s : State) : (s.respond ws).log = s.log := rfl
@[simp] theorem respond_response (ws : List Word) (s : State) : (s.respond ws).response = ws := rfl
@[simp] theorem respond_commands (ws : List Word) (s : State) : (s.respond ws).commands = s.commands := rfl
@[simp] theorem respond_params (ws : List Word) (s : State) : (s.respond ws).params = s.params := rfl

/-! ## answers -/

@[simp] theorem answers_attached (ws : List Word) (s : State) : (s.answers ws).attached = s.attached := rfl
@[simp] theorem answers_busy (ws : List Word) (s : State) : (s.answers ws).busy = s.busy := rfl
@[simp] theorem answers_cfg (ws : List Word) (s : State) : (s.answers ws).cfg = s.cfg := rfl
@[simp] theorem answers_table (ws : List Word) (s : State) : (s.answers ws).table = s.table := rfl
@[simp] theorem answers_bws (ws : List Word) (s : State) : (s.answers ws).bws = s.bws := rfl
@[simp] theorem answers_oob (ws : List Word) (s : State) : (s.answers ws).oob = s.oob := rfl
@[simp] theorem answers_focus (ws : List Word) (s : State) : (s.answers ws).focus = s.focus := rfl
@[simp] theorem answers_mapReg (ws : List Word) (s : State) : (s.answers ws).mapReg = s.mapReg := rfl
@[simp] theorem answers_mapWrap (ws : List Word) (s : State) : (s.answers ws).mapWrap = s.mapWrap := rfl
@[simp] theorem answers_scanStatus (ws : List Word) (s : State) :
    (s.answers ws).scanStatus = s.scanStatus := rfl
@[simp] theorem answers_scan (ws : List Word) (s : State) : (s.answers ws).scan = s.scan := rfl
@[simp] theorem answers_winReg (ws : List Word) (s : State) : (s.answers ws).winReg = s.winReg := rfl
@[simp] theorem answers_winWrap (ws : List Word) (s : State) : (s.answers ws).winWrap = s.winWrap := rfl
@[simp] theorem answers_irqSaved (ws : List Word) (s : State) : (s.answers ws).irqSaved = s.irqSaved := rfl
@[simp] theorem answers_bus (ws : List Word) (s : State) : (s.answers ws).bus = s.bus := rfl
@[simp] theorem answers_trace (ws : List Word) (s : State) : (s.answers ws).trace = s.trace := rfl
@[simp] theorem answers_traceMark (ws : List Word) (s : State) :
    (s.answers ws).traceMark = s.trace.length := rfl
@[simp] theorem answers_resetting (ws : List Word) (s : State) :
    (s.answers ws).resetting = s.resetting := rfl
@[simp] theorem answers_attachMark (ws : List Word) (s : State) :
    (s.answers ws).attachMark = s.attachMark := rfl
@[simp] theorem answers_log (ws : List Word) (s : State) : (s.answers ws).log = s.log := rfl
@[simp] theorem answers_response (ws : List Word) (s : State) : (s.answers ws).response = ws := rfl
@[simp] theorem answers_commands (ws : List Word) (s : State) : (s.answers ws).commands = s.commands := rfl
@[simp] theorem answers_params (ws : List Word) (s : State) : (s.answers ws).params = s.params := rfl

/-! ## pushBack -/

@[simp] theorem pushBack_attached (s : State) : s.pushBack.attached = s.attached := rfl
@[simp] theorem pushBack_busy (s : State) : s.pushBack.busy = s.busy := rfl
@[simp] theorem pushBack_cfg (s : State) : s.pushBack.cfg = s.cfg := rfl
@[simp] theorem pushBack_table (s : State) : s.pushBack.table = s.table := rfl
@[simp] theorem pushBack_bws (s : State) : s.pushBack.bws = s.bws := rfl
@[simp] theorem pushBack_oob (s : State) : s.pushBack.oob = s.oob := rfl
@[simp] theorem pushBack_focus (s : State) : s.pushBack.focus = s.focus := rfl
@[simp] theorem pushBack_mapReg (s : State) : s.pushBack.mapReg = s.mapReg := rfl
@[simp] theorem pushBack_mapWrap (s : State) : s.pushBack.mapWrap = s.mapWrap := rfl
@[simp] theorem pushBack_scanStatus (s : State) : s.pushBack.scanStatus = s.scanStatus := rfl
@[simp] theorem pushBack_scan (s : State) : s.pushBack.scan = { s.scan with cur := s.scan.cur - 1#32 } := rfl
@[simp] theorem pushBack_winReg (s : State) : s.pushBack.winReg = s.winReg := rfl
@[simp] theorem pushBack_winWrap (s : State) : s.pushBack.winWrap = s.winWrap := rfl
@[simp] theorem pushBack_irqSaved (s : State) : s.pushBack.irqSaved = s.irqSaved := rfl
@[simp] theorem pushBack_bus (s : State) : s.pushBack.bus = s.bus := rfl
@[simp] theorem pushBack_trace (s : State) : s.pushBack.trace = s.trace := rfl
@[simp] theorem pushBack_traceMark (s : State) : s.pushBack.traceMark = s.traceMark := rfl
@[simp] theorem pushBack_resetting (s : State) : s.pushBack.resetting = s.resetting := rfl
@[simp] theorem pushBack_attachMark (s : State) : s.pushBack.attachMark = s.attachMark := rfl
@[simp] theorem pushBack_log (s : State) : s.pushBack.log = s.log := rfl
@[simp] theorem pushBack_response (s : State) : s.pushBack.response = s.response := rfl
@[simp] theorem pushBack_commands (s : State) : s.pushBack.commands = s.commands := rfl
@[simp] theorem pushBack_params (s : State) : s.pushBack.params = s.params := rfl

/-! ## goTo -/

@[simp] theorem goTo_attached (p : ScanPos) (s : State) : (s.goTo p).attached = s.attached := rfl
@[simp] theorem goTo_busy (p : ScanPos) (s : State) : (s.goTo p).busy = s.busy := rfl
@[simp] theorem goTo_cfg (p : ScanPos) (s : State) : (s.goTo p).cfg = s.cfg := rfl
@[simp] theorem goTo_table (p : ScanPos) (s : State) : (s.goTo p).table = s.table := rfl
@[simp] theorem goTo_bws (p : ScanPos) (s : State) : (s.goTo p).bws = s.bws := rfl
@[simp] theorem goTo_oob (p : ScanPos) (s : State) : (s.goTo p).oob = s.oob := rfl
@[simp] theorem goTo_focus (p : ScanPos) (s : State) : (s.goTo p).focus = s.focus := rfl
@[simp] theorem goTo_mapReg (p : ScanPos) (s : State) : (s.goTo p).mapReg = s.mapReg := rfl
@[simp] theorem goTo_mapWrap (p : ScanPos) (s : State) : (s.goTo p).mapWrap = s.mapWrap := rfl
@[simp] theorem goTo_scanStatus (p : ScanPos) (s : State) : (s.goTo p).scanStatus = s.scanStatus := rfl
@[simp] theorem goTo_scan (p : ScanPos) (s : State) : (s.goTo p).scan = { s.scan with pos := p } := rfl
@[simp] theorem goTo_winReg (p : ScanPos) (s : State) : (s.goTo p).winReg = s.winReg := rfl
@[simp] theorem goTo_winWrap (p : ScanPos) (s : State) : (s.goTo p).winWrap = s.winWrap := rfl
@[simp] theorem goTo_irqSaved (p : ScanPos) (s : State) : (s.goTo p).irqSaved = s.irqSaved := rfl
@[simp] theorem goTo_bus (p : ScanPos) (s : State) : (s.goTo p).bus = s.bus := rfl
@[simp] theorem goTo_trace (p : ScanPos) (s : State) : (s.goTo p).trace = s.trace := rfl
@[simp] theorem goTo_traceMark (p : ScanPos) (s : State) : (s.goTo p).traceMark = s.traceMark := rfl
@[simp] theorem goTo_resetting (p : ScanPos) (s : State) : (s.goTo p).resetting = s.resetting := rfl
@[simp] theorem goTo_attachMark (p : ScanPos) (s : State) : (s.goTo p).attachMark = s.attachMark := rfl
@[simp] theorem goTo_log (p : ScanPos) (s : State) : (s.goTo p).log = s.log := rfl
@[simp] theorem goTo_response (p : ScanPos) (s : State) : (s.goTo p).response = s.response := rfl
@[simp] theorem goTo_commands (p : ScanPos) (s : State) : (s.goTo p).commands = s.commands := rfl
@[simp] theorem goTo_params (p : ScanPos) (s : State) : (s.goTo p).params = s.params := rfl

/-! ## parseFail -/

@[simp] theorem parseFail_attached (c : ParseCause) (s : State) : (s.parseFail c).attached = s.attached := rfl
@[simp] theorem parseFail_busy (c : ParseCause) (s : State) : (s.parseFail c).busy = false := rfl
@[simp] theorem parseFail_cfg (c : ParseCause) (s : State) : (s.parseFail c).cfg = s.cfg := rfl
@[simp] theorem parseFail_table (c : ParseCause) (s : State) : (s.parseFail c).table = [] := rfl
@[simp] theorem parseFail_bws (c : ParseCause) (s : State) : (s.parseFail c).bws = [] := rfl
@[simp] theorem parseFail_oob (c : ParseCause) (s : State) : (s.parseFail c).oob = none := rfl
@[simp] theorem parseFail_focus (c : ParseCause) (s : State) : (s.parseFail c).focus = Focus.unset := rfl
@[simp] theorem parseFail_mapReg (c : ParseCause) (s : State) : (s.parseFail c).mapReg = s.mapReg := rfl
@[simp] theorem parseFail_mapWrap (c : ParseCause) (s : State) : (s.parseFail c).mapWrap = s.mapWrap := rfl
@[simp] theorem parseFail_scanStatus (c : ParseCause) (s : State) :
    (s.parseFail c).scanStatus = .parseError c s.scan.cur := rfl
@[simp] theorem parseFail_scan (c : ParseCause) (s : State) :
    (s.parseFail c).scan = { s.scan with rows := [] } := rfl
@[simp] theorem parseFail_winReg (c : ParseCause) (s : State) : (s.parseFail c).winReg = s.winReg := rfl
@[simp] theorem parseFail_winWrap (c : ParseCause) (s : State) : (s.parseFail c).winWrap = s.winWrap := rfl
@[simp] theorem parseFail_irqSaved (c : ParseCause) (s : State) : (s.parseFail c).irqSaved = s.irqSaved := rfl
@[simp] theorem parseFail_bus (c : ParseCause) (s : State) : (s.parseFail c).bus = s.bus := rfl
@[simp] theorem parseFail_trace (c : ParseCause) (s : State) : (s.parseFail c).trace = s.trace := rfl
@[simp] theorem parseFail_traceMark (c : ParseCause) (s : State) :
    (s.parseFail c).traceMark = s.traceMark := rfl
@[simp] theorem parseFail_resetting (c : ParseCause) (s : State) :
    (s.parseFail c).resetting = s.resetting := rfl
@[simp] theorem parseFail_attachMark (c : ParseCause) (s : State) :
    (s.parseFail c).attachMark = s.attachMark := rfl
@[simp] theorem parseFail_log (c : ParseCause) (s : State) : (s.parseFail c).log = s.log := rfl
@[simp] theorem parseFail_response (c : ParseCause) (s : State) : (s.parseFail c).response = [1#32] := rfl
@[simp] theorem parseFail_commands (c : ParseCause) (s : State) : (s.parseFail c).commands = s.commands := rfl
@[simp] theorem parseFail_params (c : ParseCause) (s : State) : (s.parseFail c).params = s.params := rfl

/-! ## scanPrologue -/

@[simp] theorem scanPrologue_attached (s : State) : s.scanPrologue.attached = s.attached := rfl
@[simp] theorem scanPrologue_busy (s : State) : s.scanPrologue.busy = true := rfl
@[simp] theorem scanPrologue_cfg (s : State) : s.scanPrologue.cfg = s.cfg := rfl
@[simp] theorem scanPrologue_table (s : State) : s.scanPrologue.table = [] := rfl
@[simp] theorem scanPrologue_bws (s : State) : s.scanPrologue.bws = [] := rfl
@[simp] theorem scanPrologue_oob (s : State) : s.scanPrologue.oob = none := rfl
@[simp] theorem scanPrologue_focus (s : State) : s.scanPrologue.focus = Focus.unset := rfl
@[simp] theorem scanPrologue_mapReg (s : State) : s.scanPrologue.mapReg = [] := rfl
@[simp] theorem scanPrologue_mapWrap (s : State) : s.scanPrologue.mapWrap = [] := rfl
@[simp] theorem scanPrologue_scanStatus (s : State) : s.scanPrologue.scanStatus = s.scanStatus := rfl
@[simp] theorem scanPrologue_scan (s : State) :
    s.scanPrologue.scan = { s.scan with cur := 0, rows := [] } := rfl
@[simp] theorem scanPrologue_winReg (s : State) : s.scanPrologue.winReg = s.winReg := rfl
@[simp] theorem scanPrologue_winWrap (s : State) : s.scanPrologue.winWrap = s.winWrap := rfl
@[simp] theorem scanPrologue_irqSaved (s : State) : s.scanPrologue.irqSaved = s.irqSaved := rfl
@[simp] theorem scanPrologue_bus (s : State) : s.scanPrologue.bus = s.bus := rfl
@[simp] theorem scanPrologue_trace (s : State) : s.scanPrologue.trace = s.trace := rfl
@[simp] theorem scanPrologue_traceMark (s : State) : s.scanPrologue.traceMark = s.traceMark := rfl
@[simp] theorem scanPrologue_resetting (s : State) : s.scanPrologue.resetting = s.resetting := rfl
@[simp] theorem scanPrologue_attachMark (s : State) : s.scanPrologue.attachMark = s.attachMark := rfl
@[simp] theorem scanPrologue_log (s : State) : s.scanPrologue.log = s.log := rfl
@[simp] theorem scanPrologue_response (s : State) : s.scanPrologue.response = s.response := rfl
@[simp] theorem scanPrologue_commands (s : State) : s.scanPrologue.commands = s.commands := rfl
@[simp] theorem scanPrologue_params (s : State) : s.scanPrologue.params = s.params := rfl

/-! ## openStream -/

@[simp] theorem openStream_attached (p : Word) (s : State) : (s.openStream p).attached = s.attached := rfl
@[simp] theorem openStream_busy (p : Word) (s : State) : (s.openStream p).busy = s.busy := rfl
@[simp] theorem openStream_cfg (p : Word) (s : State) : (s.openStream p).cfg = s.cfg := rfl
@[simp] theorem openStream_table (p : Word) (s : State) : (s.openStream p).table = s.table := rfl
@[simp] theorem openStream_bws (p : Word) (s : State) : (s.openStream p).bws = s.bws := rfl
@[simp] theorem openStream_oob (p : Word) (s : State) : (s.openStream p).oob = s.oob := rfl
@[simp] theorem openStream_focus (p : Word) (s : State) : (s.openStream p).focus = s.focus := rfl
@[simp] theorem openStream_mapReg (p : Word) (s : State) : (s.openStream p).mapReg = s.mapReg := rfl
@[simp] theorem openStream_mapWrap (p : Word) (s : State) : (s.openStream p).mapWrap = s.mapWrap := rfl
@[simp] theorem openStream_scanStatus (p : Word) (s : State) :
    (s.openStream p).scanStatus = s.scanStatus := rfl
@[simp] theorem openStream_scan (p : Word) (s : State) :
    (s.openStream p).scan = { s.scan with eromBase := p, cur := 0, lim := Config.eromLimitWords, rows := [], pos := .identity } := rfl
@[simp] theorem openStream_winReg (p : Word) (s : State) : (s.openStream p).winReg = s.winReg := rfl
@[simp] theorem openStream_winWrap (p : Word) (s : State) : (s.openStream p).winWrap = s.winWrap := rfl
@[simp] theorem openStream_irqSaved (p : Word) (s : State) : (s.openStream p).irqSaved = s.irqSaved := rfl
@[simp] theorem openStream_bus (p : Word) (s : State) : (s.openStream p).bus = s.bus := rfl
@[simp] theorem openStream_trace (p : Word) (s : State) : (s.openStream p).trace = s.trace := rfl
@[simp] theorem openStream_traceMark (p : Word) (s : State) : (s.openStream p).traceMark = s.traceMark := rfl
@[simp] theorem openStream_resetting (p : Word) (s : State) : (s.openStream p).resetting = s.resetting := rfl
@[simp] theorem openStream_attachMark (p : Word) (s : State) : (s.openStream p).attachMark = s.attachMark := rfl
@[simp] theorem openStream_log (p : Word) (s : State) : (s.openStream p).log = s.log := rfl
@[simp] theorem openStream_response (p : Word) (s : State) : (s.openStream p).response = s.response := rfl
@[simp] theorem openStream_commands (p : Word) (s : State) : (s.openStream p).commands = s.commands := rfl
@[simp] theorem openStream_params (p : Word) (s : State) : (s.openStream p).params = s.params := rfl

end Sys2Proof.Machine
end

