-- ==== Sys2Proof/Laws/Bus.lean ====
section
/-! SUPPORT. What every operation does outside the block, said once: `OnBus` accounts for the trace, the memory,
the windows and the answers of the bus; `Acts` adds what no command body changes; `Body` adds the focus. -/

namespace Sys2Proof.Machine

/-- What the bus answers after events `before`, when no test script is left. -/
def State.deviceAnswer (s : State) (before : List Event) (pa : Addr) : Word :=
  match s.bus.device with
  | .oracle => Config.busOracle (s.trace ++ before) pa
  | .reference pages => referenceAnswer pages (replay before s.bus.mem) pa

/-- From `s` to `t` exactly the events `es` are emitted, and they account for the bus and the windows. -/
structure OnBus (s t : State) (es : List Event) : Prop where
  trace : t.trace = s.trace ++ es
  mem : t.bus.mem = replay es s.bus.mem
  device : t.bus.device = s.bus.device
  winReg : t.winReg = lastBase Event.regBase es s.winReg
  winWrap : t.winWrap = lastBase Event.wrapBase es s.winWrap
  params : t.params = s.params
  script : s.bus.script = [] → t.bus.script = []
  answered : s.bus.script = [] → ∀ (before after : List Event) (path : AccessPath) (pa : Addr) (v : Word),
    es = before ++ .memRead path pa v :: after → v = s.deviceAnswer before pa

/-- `OnBus`, and what no body of a command changes but for focus, caches and mask. -/
structure Acts (s t : State) (es : List Event) (lg : List LogEntry) : Prop extends OnBus s t es where
  log : t.log = s.log ++ lg
  attached : t.attached = s.attached
  busy : t.busy = s.busy
  cfg : t.cfg = s.cfg
  table : t.table = s.table
  bws : t.bws = s.bws
  oob : t.oob = s.oob
  scanStatus : t.scanStatus = s.scanStatus
  scan : t.scan = s.scan
  commands : t.commands = s.commands
  response : t.response = s.response
  traceMark : t.traceMark = s.traceMark
  attachMark : t.attachMark = s.attachMark
  resetting : t.resetting = s.resetting

/-- `Acts`, and focus, caches, mask and windows as they were. -/
structure Body (s t : State) (es : List Event) (lg : List LogEntry) : Prop extends Acts s t es lg where
  focus : t.focus = s.focus
  mapReg : t.mapReg = s.mapReg
  mapWrap : t.mapWrap = s.mapWrap
  irqSaved : t.irqSaved = s.irqSaved
  still : t.winReg = s.winReg ∧ t.winWrap = s.winWrap

theorem replay_append (a b : List Event) (m : Memory) : replay (a ++ b) m = replay b (replay a m) := by
  induction a generalizing m with
  | nil => rfl
  | cons e rest ih => cases e <;> simp [replay, ih]

theorem lastBase_append (f : Event → Option Addr) (a b : List Event) (x : Addr) :
    lastBase f (a ++ b) x = lastBase f b (lastBase f a x) := by
  induction a generalizing x with
  | nil => rfl
  | cons e rest ih => simp [lastBase, ih]

theorem OnBus.refl (s : State) : OnBus s s [] where
  trace := by simp
  mem := rfl
  device := rfl
  winReg := rfl
  winWrap := rfl
  params := rfl
  script := id
  answered := fun _ b a p pa v h => by cases b <;> simp at h

/-- Nothing on the bus or the windows moves. -/
theorem OnBus.of_eq {s t : State} (h1 : t.trace = s.trace) (h2 : t.bus = s.bus) (h3 : t.winReg = s.winReg)
    (h4 : t.winWrap = s.winWrap) (h5 : t.params = s.params) : OnBus s t [] where
  trace := by simp [h1]
  mem := by simp [h2, replay]
  device := by rw [h2]
  winReg := h3
  winWrap := h4
  params := h5
  script := by rw [h2]; exact id
  answered := fun _ b a p pa v h => by cases b <;> simp at h

theorem OnBus.trans {s t u : State} {a b : List Event} (h : OnBus s t a) (k : OnBus t u b) :
    OnBus s u (a ++ b) where
  trace := by rw [k.trace, h.trace, List.append_assoc]
  mem := by rw [k.mem, h.mem, replay_append]
  device := k.device.trans h.device
  winReg := by rw [k.winReg, h.winReg, lastBase_append]
  winWrap := by rw [k.winWrap, h.winWrap, lastBase_append]
  params := k.params.trans h.params
  script := fun e => k.script (h.script e)
  answered := by
    intro e before after path pa v hs
    rcases List.append_eq_append_iff.mp hs with ⟨c, hb, ha⟩ | ⟨c, ha, hb⟩
    · have := k.answered (h.script e) _ _ _ _ _ ha
      rw [this, hb]
      simp only [State.deviceAnswer, h.device, h.trace, h.mem, replay_append, List.append_assoc]
    · cases c with
      | nil =>
        have := k.answered (h.script e) [] _ _ _ _ (by simpa using hb.symm)
        have hb' : before = a := by simpa using ha.symm
        rw [this, hb']
        simp only [State.deviceAnswer, h.device, h.trace, h.mem, replay, List.append_nil]
      | cons x c =>
        simp only [List.cons_append, List.cons.injEq] at hb
        obtain ⟨rfl, _⟩ := hb
        exact h.answered e before c path pa v ha

theorem Acts.refl (s : State) : Acts s s [] [] where
  toOnBus := OnBus.refl s
  log := by simp
  attached := rfl
  busy := rfl
  cfg := rfl
  table := rfl
  bws := rfl
  oob := rfl
  scanStatus := rfl
  scan := rfl
  commands := rfl
  response := rfl
  traceMark := rfl
  attachMark := rfl
  resetting := rfl

theorem Acts.trans {s t u : State} {a b : List Event} {l m : List LogEntry} (h : Acts s t a l)
    (k : Acts t u b m) : Acts s u (a ++ b) (l ++ m) where
  toOnBus := h.toOnBus.trans k.toOnBus
  log := by rw [k.log, h.log, List.append_assoc]
  attached := k.attached.trans h.attached
  busy := k.busy.trans h.busy
  cfg := k.cfg.trans h.cfg
  table := k.table.trans h.table
  bws := k.bws.trans h.bws
  oob := k.oob.trans h.oob
  scanStatus := k.scanStatus.trans h.scanStatus
  scan := k.scan.trans h.scan
  commands := k.commands.trans h.commands
  response := k.response.trans h.response
  traceMark := k.traceMark.trans h.traceMark
  attachMark := k.attachMark.trans h.attachMark
  resetting := k.resetting.trans h.resetting

theorem Body.refl (s : State) : Body s s [] [] where
  toActs := Acts.refl s
  focus := rfl
  mapReg := rfl
  mapWrap := rfl
  irqSaved := rfl
  still := ⟨rfl, rfl⟩

theorem Body.trans {s t u : State} {a b : List Event} {l m : List LogEntry} (h : Body s t a l)
    (k : Body t u b m) : Body s u (a ++ b) (l ++ m) where
  toActs := h.toActs.trans k.toActs
  focus := k.focus.trans h.focus
  mapReg := k.mapReg.trans h.mapReg
  mapWrap := k.mapWrap.trans h.mapWrap
  irqSaved := k.irqSaved.trans h.irqSaved
  still := ⟨k.still.1.trans h.still.1, k.still.2.trans h.still.2⟩

theorem Body.wrapperPa {s t : State} {es : List Event} {lg : List LogEntry} (h : Body s t es lg)
    (wb x : Addr) : t.wrapperPa wb x = s.wrapperPa wb x := by
  unfold State.wrapperPa State.flat
  rw [h.cfg, h.still.2]

/-! ## The primitives -/

/-- An event that is neither a read, a write nor a WinSet. -/
theorem onBus_emit (e : Event) (s : State) (h1 : e.accessed = none) (h2 : e.regBase = none)
    (h3 : e.wrapBase = none) : OnBus s (s.emit e) [e] := by
  refine ⟨rfl, ?_, rfl, ?_, ?_, rfl, id, ?_⟩
  · cases e <;> simp_all [replay, Event.accessed]
  · simp [lastBase, h2]
  · simp [lastBase, h3]
  · intro _ b a p pa v h
    cases b with
    | nil => simp at h; rw [h.1] at h1; simp [Event.accessed] at h1
    | cons x b => simp at h

theorem body_map (a n : Addr) (s : State) : Body s (s.map a n) [.map a n] [] :=
  ⟨⟨onBus_emit _ s rfl rfl rfl, by simp, rfl, rfl, rfl, rfl, rfl, rfl, rfl, rfl, rfl, rfl, rfl, rfl, rfl⟩, rfl, rfl, rfl, rfl, rfl, rfl⟩

theorem body_delay (n : Nat) (s : State) : Body s (s.delay n) [.delay n] [] :=
  ⟨⟨onBus_emit _ s rfl rfl rfl, by simp, rfl, rfl, rfl, rfl, rfl, rfl, rfl, rfl, rfl, rfl, rfl, rfl, rfl⟩, rfl, rfl, rfl, rfl, rfl, rfl⟩

theorem body_logEntry (e : LogEntry) (s : State) : Body s (s.logEntry e) [] [e] :=
  ⟨⟨OnBus.of_eq rfl rfl rfl rfl rfl, rfl, rfl, rfl, rfl, rfl, rfl, rfl, rfl, rfl, rfl, rfl, rfl, rfl, rfl⟩, rfl, rfl, rfl, rfl, rfl, rfl⟩

theorem onBus_memRead (p : AccessPath) (a : Addr) (s : State) :
    OnBus s (s.memRead p a).2 [.memRead p a (s.memRead p a).1] := by
  refine ⟨rfl, rfl, rfl, rfl, rfl, rfl, fun h => by simp [h], ?_⟩
  intro h b c q pa v he
  cases b with
  | nil =>
    simp only [List.nil_append, List.cons.injEq, Event.memRead.injEq] at he
    obtain ⟨⟨-, rfl, rfl⟩, -⟩ := he
    simp only [memRead_fst, State.busAnswer, h, List.find?_nil, State.deviceAnswer, replay, List.append_nil]
      <;> cases s.bus.device <;> rfl
  | cons x b => simp at he

theorem body_memRead (p : AccessPath) (a : Addr) (s : State) :
    Body s (s.memRead p a).2 [.memRead p a (s.memRead p a).1] [] :=
  ⟨⟨onBus_memRead p a s, by simp, rfl, rfl, rfl, rfl, rfl, rfl, rfl, rfl, rfl, rfl, rfl, rfl, rfl⟩, rfl, rfl, rfl, rfl, rfl, rfl⟩

theorem body_memWrite (p : AccessPath) (a : Addr) (v : Word) (s : State) :
    Body s (s.memWrite p a v) [.memWrite p a v] [] := by
  refine ⟨⟨⟨rfl, rfl, rfl, rfl, rfl, rfl, id, ?_⟩, by simp, rfl, rfl, rfl, rfl, rfl, rfl, rfl, rfl, rfl, rfl, rfl, rfl, rfl⟩, rfl, rfl, rfl, rfl, rfl, rfl⟩
  intro h b c q pa w he
  cases b <;> simp at he

theorem acts_winSet (w : Window) (b : Addr) (s : State) : Acts s (s.winSet w b) [.winSet w b] [] := by
  cases w <;>
  · refine ⟨⟨rfl, rfl, rfl, rfl, rfl, rfl, id, ?_⟩, by simp, rfl, rfl, rfl, rfl, rfl, rfl, rfl, rfl, rfl, rfl, rfl, rfl, rfl⟩
    intro h b c q pa w he
    cases b <;> simp at he

theorem acts_irqMask (s : State) : Acts s s.irqMask.2 [.irqMask s.irqMask.1] [] := by
  refine ⟨⟨rfl, rfl, rfl, rfl, rfl, rfl, id, ?_⟩, by simp, rfl, rfl, rfl, rfl, rfl, rfl, rfl, rfl, rfl, rfl, rfl, rfl, rfl⟩
  intro h b c q pa w he
  cases b <;> simp at he

theorem acts_irqRestore (n : Nat) (s : State) : Acts s (s.irqRestore n) [.irqRestore n] [] := by
  refine ⟨⟨rfl, rfl, rfl, rfl, rfl, rfl, id, ?_⟩, by simp, rfl, rfl, rfl, rfl, rfl, rfl, rfl, rfl, rfl, rfl, rfl, rfl, rfl⟩
  intro h b c q pa w he
  cases b <;> simp at he

end Sys2Proof.Machine
end

