-- ==== Sys2Proof/Laws/Ops.lean ====
section
/-! SUPPORT. The shared operations, each with all it can do said once. -/

namespace Sys2Proof.Machine

/-! ## Commands -/

/-- A command of a ready block answers what its body gives. -/
theorem command_ready (body : State → List Word × State) (s : State) (h : s.ready) :
    command body s = .next ((body s.begin).2.respond (body s.begin).1) := by
  simp [command, h.1, h.2]

/-- A command that answers a next state ran its body in a ready block. -/
theorem command_next {body : State → List Word × State} {s t : State} (h : command body s = .next t) :
    s.ready ∧ t = (body s.begin).2.respond (body s.begin).1 := by
  unfold command at h
  split at h
  · cases h
  · split at h
    · cases h; rename_i hb ha; exact ⟨⟨by simpa using hb, ha⟩, rfl⟩
    · cases h

theorem command_not_fault (body : State → List Word × State) (s : State) (r : Fault) :
    command body s ≠ .fault r := by
  unfold command
  split
  · simp
  · split <;> simp

/-- A command whose body does nothing to the state only gives its words. -/
theorem begin_respond (ws : List Word) (s : State) : s.begin.respond ws = s.answers ws := rfl

@[simp] theorem row_begin (i : Word) (s : State) : s.begin.row i = s.row i := rfl

@[simp] theorem flat_begin (s : State) : s.begin.flat = s.flat := rfl

/-! ## Masked read-modify-write (R315) -/

theorem rmw_body (path : AccessPath) (pa : Addr) (mask value : Word) (s : State) :
    ∃ es, Body s (s.rmw path pa mask value).2 es [] ∧
      IsRmw path pa mask value es (s.rmw path pa mask value).1 := by
  unfold State.rmw
  split
  · rename_i h
    exact ⟨_, body_memRead path pa s, .inl ⟨h, rfl⟩⟩
  · rename_i h
    exact ⟨_, ((body_memRead path pa s).trans (body_memWrite path pa _ _)).trans (body_memRead path pa _),
      .inr ⟨h, _, rfl⟩⟩

/-! ## Waits (R340, R342, R344) -/

theorem wrapRead_body (wb x : Addr) (s : State) :
    Body s (s.wrapRead wb x).2 [.memRead .plain (s.wrapperPa wb x) (s.wrapRead wb x).1] [] :=
  body_memRead _ _ s

theorem wrapWrite_body (wb x : Addr) (v : Word) (s : State) :
    Body s (s.wrapWrite wb x v) [.memWrite .plain (s.wrapperPa wb x) v] [] :=
  body_memWrite _ _ _ s

theorem pollEvents_cons (period : Nat) (pa : Addr) (v : Word) (vs : List Word) (h : vs ≠ []) :
    pollEvents period pa (v :: vs) = .memRead .plain pa v :: .delay period :: pollEvents period pa vs := by
  cases vs with
  | nil => exact absurd rfl h
  | cons w rest => rfl

/-- The pending-ops wait at poll bound `n`. -/
theorem waitPending_body (wb : Addr) (n : Nat) (s : State) :
    ∃ es, Body s (s.waitPending wb n).2 es [] ∧
      IsWait s.params.pollPeriodUs n (s.wrapperPa wb Config.resetStatus) es (s.waitPending wb n).1 := by
  induction n generalizing s with
  | zero =>
    refine ⟨_, wrapRead_body wb _ s, [], _, rfl, by simp, ?_, by simp, by simp⟩
    simp [State.waitPending]
  | succ k ih =>
    unfold State.waitPending
    dsimp only
    split
    · rename_i h
      refine ⟨_, wrapRead_body wb _ s, [], _, rfl, by simp, ?_, by simp, by simp⟩
      simp [h]
    · rename_i h
      split
      · rename_i hk
        subst hk
        refine ⟨_, wrapRead_body wb _ s, [], _, rfl, by simp, ?_, by simp, by simp⟩
        simp [h]
      · rename_i hk
        have hb := (wrapRead_body wb Config.resetStatus s).trans
          (body_delay (s.wrapRead wb Config.resetStatus).2.params.pollPeriodUs _)
        obtain ⟨es, he, vs, last, rfl, hv, hl, hlen, hfull⟩ := ih _
        refine ⟨_, hb.trans he, (s.wrapRead wb Config.resetStatus).1 :: vs, last, ?_, ?_, hl, ?_, ?_⟩
        · simp only [List.cons_append, List.nil_append]
          rw [pollEvents_cons _ _ _ (vs ++ [last]) (by simp), hb.wrapperPa, hb.params]
          rfl
        · intro v hm
          rcases List.mem_cons.mp hm with rfl | hm
          · exact h
          · exact hv v hm
        · simp only [List.length_cons]; omega
        · intro hf
          have := hfull hf
          simp only [List.length_cons]; omega

/-- ShortWait: the events of a short wait, and its tolerated timeout in the log. -/
theorem shortWait_body (wb : Addr) (s : State) :
    ∃ es tol, Body s (s.shortWait wb) es (pendingLog wb tol) ∧
      IsShortWait s.params (s.wrapperPa wb Config.resetStatus) es tol := by
  obtain ⟨es, hb, hw⟩ := waitPending_body wb s.params.shortPolls s
  unfold State.shortWait
  dsimp only
  cases hr : (s.waitPending wb s.params.shortPolls).1
  · rw [hr] at hw
    exact ⟨es, true, by simpa [hr, pendingLog] using hb.trans (body_logEntry _ _), hw⟩
  · rw [hr] at hw
    exact ⟨es, false, by simpa [hr, pendingLog] using hb, hw⟩

/-- TwoTierWait: the events of a two-tier wait, and its tolerated timeout in the log. -/
theorem twoTierWait_body (wb : Addr) (s : State) :
    ∃ es tol, Body s (s.twoTierWait wb) es (pendingLog wb tol) ∧
      IsTwoTierWait s.params (s.wrapperPa wb Config.resetStatus) es tol := by
  obtain ⟨es, hb, hw⟩ := waitPending_body wb s.params.shortPolls s
  unfold State.twoTierWait
  dsimp only
  cases hr : (s.waitPending wb s.params.shortPolls).1
  · rw [hr] at hw
    obtain ⟨es2, hb2, hw2⟩ := waitPending_body wb
      (s.waitPending wb s.params.shortPolls).2.params.longPolls (s.waitPending wb s.params.shortPolls).2
    rw [hb.params, hb.wrapperPa] at hw2
    cases hq : ((s.waitPending wb s.params.shortPolls).2.waitPending wb
      (s.waitPending wb s.params.shortPolls).2.params.longPolls).1
    · rw [hb.params] at hq
      rw [hq] at hw2
      refine ⟨es ++ es2, true, ?_, .inr ⟨es, es2, rfl, hw, hw2⟩⟩
      have := (hb.trans hb2).trans (body_logEntry (.timeoutTolerated .pendingOps wb) _)
      simpa [hb.params, hq, pendingLog] using this
    · rw [hb.params] at hq
      rw [hq] at hw2
      refine ⟨es ++ es2, false, ?_, .inr ⟨es, es2, rfl, hw, hw2⟩⟩
      simpa [hb.params, hq, pendingLog] using hb.trans hb2
  · rw [hr] at hw
    exact ⟨es, false, by simpa [hr, pendingLog] using hb, .inl ⟨rfl, hw⟩⟩

end Sys2Proof.Machine
end

