-- ==== Sys2Proof/Laws/Focus.lean ====
section
/-! SUPPORT. The focus switch and the critical section, said once (43_focus.md R281, R290). -/

namespace Sys2Proof.Machine

theorem row_eq {s t : State} (h : t.table = s.table) (i : Word) : t.row i = s.row i := by
  unfold State.row; rw [h]

theorem switchEvents_eq {s t : State} (h : t.table = s.table) (c : t.cfg = s.cfg) (i : Word) :
    t.switchEvents i = s.switchEvents i := by
  unfold State.switchEvents; rw [row_eq h, c]

theorem row_some_iff (s : State) (i : Word) : (∃ d, s.row i = some d) ↔ i.toNat < s.table.length := by
  simp [State.row, List.getElem?_eq_some_iff]

/-! ## SWITCH_TO -/

theorem switchTo_none {i : Word} {s : State} (h : s.row i = none) : s.switchTo i = s := by
  simp [State.switchTo, h]

theorem switchTo_windowed {i : Word} {d : CoreDescriptor} {s : State} (h : s.row i = some d)
    (hf : s.flat = false) :
    s.switchTo i = { s with
      trace := s.trace ++ s.switchEvents i
      winReg := d.primaryAddr
      winWrap := match d.wrapperAddr with
        | some wb => if s.cfg.windowCount = 2 then wb else s.winWrap
        | none => s.winWrap
      focus := { idx := some i, reg := some (.window .reg)
                 wrap := match d.wrapperAddr with
                   | some _ => if s.cfg.windowCount = 2 then some (.window .wrap) else none
                   | none => none } } := by
  simp only [State.switchTo, h, hf, State.focusWindowed, State.switchEvents]
  cases hw : d.wrapperAddr with
  | none => simp [State.winSet]
  | some wb =>
    by_cases hc : s.cfg.windowCount = 2 <;> simp [State.winSet, hc]

theorem switchTo_flat {i : Word} {d : CoreDescriptor} {s : State} (h : s.row i = some d)
    (hf : s.flat = true) : s.switchTo i = s.focusFlat i d := by
  simp [State.switchTo, h, hf]

/-- SWITCH_TO on a windowed transport: the WinSets of `switchEvents`, nothing else on the bus. -/
theorem switchTo_windowed_acts (i : Word) {s : State} (hf : s.flat = false) :
    Acts s (s.switchTo i) (s.switchEvents i) [] ∧ (s.switchTo i).mapReg = s.mapReg ∧
      (s.switchTo i).mapWrap = s.mapWrap ∧ (s.switchTo i).irqSaved = s.irqSaved := by
  cases h : s.row i with
  | none =>
    rw [switchTo_none h]
    simp only [State.switchEvents, h]
    exact ⟨Acts.refl s, by trivial, by trivial, by trivial⟩
  | some d =>
    rw [switchTo_windowed h hf]
    refine ⟨?_, rfl, rfl, rfl⟩
    simp only [State.switchEvents, h]
    cases hw : d.wrapperAddr with
    | none =>
      have := acts_winSet .reg d.primaryAddr s
      refine ⟨⟨rfl, rfl, rfl, rfl, rfl, rfl, id, this.answered⟩, ?_, rfl, rfl, rfl, rfl, rfl, rfl, rfl, rfl,
        rfl, rfl, rfl, rfl, rfl⟩
      simp
    | some wb =>
      by_cases hc : s.cfg.windowCount = 2
      · have := (acts_winSet .reg d.primaryAddr s).trans (acts_winSet .wrap wb _)
        simp only [hc, if_true]
        refine ⟨⟨rfl, rfl, rfl, rfl, rfl, rfl, id, this.answered⟩, ?_, rfl, rfl, rfl, rfl, rfl, rfl, rfl, rfl,
          rfl, rfl, rfl, rfl, rfl⟩
        simp
      · have := acts_winSet .reg d.primaryAddr s
        simp only [hc, if_false]
        refine ⟨⟨rfl, rfl, rfl, rfl, rfl, rfl, id, this.answered⟩, ?_, rfl, rfl, rfl, rfl, rfl, rfl, rfl, rfl,
          rfl, rfl, rfl, rfl, rfl⟩
        simp

/-- The events of a Map that a cache entry may spare. -/
def mapOnce (cached : Option Addr) (base : Addr) : List Event :=
  match cached with
  | some _ => []
  | none => [.map base Config.coreWindowSize]

/-- The cache after a Map that a cache entry may spare. -/
def cacheOnce (cache : List (Option Addr)) (k : Nat) (base : Addr) : List (Option Addr) :=
  match cacheGet cache k with
  | some _ => cache
  | none => cacheSet cache k base

theorem mapCore_acts (i : Word) (b : Addr) (s : State) :
    Acts s (s.mapCore i b) (mapOnce (cacheGet s.mapReg i.toNat) b) [] ∧
      (s.mapCore i b).mapReg = cacheOnce s.mapReg i.toNat b ∧ (s.mapCore i b).mapWrap = s.mapWrap ∧
      s.SameFocus (s.mapCore i b) := by
  unfold State.mapCore mapOnce cacheOnce
  cases cacheGet s.mapReg i.toNat with
  | some a => exact ⟨Acts.refl s, rfl, rfl, rfl, rfl, rfl, rfl⟩
  | none =>
    have := (body_map b Config.coreWindowSize s).toActs
    exact ⟨⟨⟨this.trace, this.mem, this.device, this.winReg, this.winWrap, this.params, this.script,
      this.answered⟩, this.log, rfl, rfl, rfl, rfl, rfl, rfl, rfl, rfl, rfl, rfl, rfl,
      rfl, rfl⟩, rfl, rfl, rfl, rfl,
      rfl, rfl⟩

theorem mapWrapper_acts (i : Word) (b : Addr) (s : State) :
    Acts s (s.mapWrapper i b) (mapOnce (cacheGet s.mapWrap i.toNat) b) [] ∧
      (s.mapWrapper i b).mapWrap = cacheOnce s.mapWrap i.toNat b ∧ (s.mapWrapper i b).mapReg = s.mapReg ∧
      s.SameFocus (s.mapWrapper i b) := by
  unfold State.mapWrapper mapOnce cacheOnce
  cases cacheGet s.mapWrap i.toNat with
  | some a => exact ⟨Acts.refl s, rfl, rfl, rfl, rfl, rfl, rfl⟩
  | none =>
    have := (body_map b Config.coreWindowSize s).toActs
    exact ⟨⟨⟨this.trace, this.mem, this.device, this.winReg, this.winWrap, this.params, this.script,
      this.answered⟩, this.log, rfl, rfl, rfl, rfl, rfl, rfl, rfl, rfl, rfl, rfl, rfl,
      rfl, rfl⟩, rfl, rfl, rfl, rfl,
      rfl, rfl⟩

/-- `Acts` sees neither focus nor caches nor mask. -/
theorem Acts.focus_irrelevant {s t : State} {es : List Event} {lg : List LogEntry} (h : Acts s t es lg)
    (f : Focus) : Acts s { t with focus := f } es lg :=
  ⟨⟨h.trace, h.mem, h.device, h.winReg, h.winWrap, h.params, h.script, h.answered⟩, h.log, h.attached, h.busy,
    h.cfg, h.table, h.bws, h.oob, h.scanStatus, h.scan, h.commands, h.response, h.traceMark,
    h.attachMark, h.resetting⟩

/-- SWITCH_TO on Flat: Maps only, each at most once per core. -/
theorem focusFlat_acts (i : Word) (d : CoreDescriptor) (s : State) :
    Acts s (s.focusFlat i d)
      (mapOnce (cacheGet s.mapReg i.toNat) d.primaryAddr ++
        match d.wrapperAddr with
        | some wb => mapOnce (cacheGet s.mapWrap i.toNat) wb
        | none => []) [] ∧
      (s.focusFlat i d).irqSaved = s.irqSaved := by
  unfold State.focusFlat
  obtain ⟨h1, -, hw, hf⟩ := mapCore_acts i d.primaryAddr s
  cases d.wrapperAddr with
  | none => exact ⟨by simpa using h1.focus_irrelevant _, hf.irqSaved⟩
  | some wb =>
    obtain ⟨h2, -, -, hf2⟩ := mapWrapper_acts i wb (s.mapCore i d.primaryAddr)
    rw [hw] at h2
    exact ⟨(h1.trans h2).focus_irrelevant _, hf2.irqSaved.trans hf.irqSaved⟩

/-- Any SWITCH_TO emits Maps and WinSets only, and moves nothing a command body may not move. -/
theorem switchTo_acts (i : Word) (s : State) :
    ∃ es, Acts s (s.switchTo i) es [] ∧
      (∀ e ∈ es, (∃ a n, e = .map a n) ∨ ∃ w b, e = .winSet w b) ∧
      (s.switchTo i).irqSaved = s.irqSaved := by
  cases hf : s.flat
  · refine ⟨_, (switchTo_windowed_acts i hf).1, ?_, (switchTo_windowed_acts i hf).2.2.2⟩
    intro e he
    right
    unfold State.switchEvents at he
    cases h : s.row i with
    | none => simp [h] at he
    | some d =>
      cases hw : d.wrapperAddr with
      | none => simp [h, hw] at he; exact ⟨_, _, he⟩
      | some wb =>
        by_cases hc : s.cfg.windowCount = 2
        · simp [h, hw, hc] at he; rcases he with rfl | rfl <;> exact ⟨_, _, rfl⟩
        · simp [h, hw, hc] at he; exact ⟨_, _, he⟩
  · cases h : s.row i with
    | none =>
      rw [switchTo_none h]
      exact ⟨[], Acts.refl s, by simp, rfl⟩
    | some d =>
      rw [switchTo_flat h hf]
      refine ⟨_, (focusFlat_acts i d s).1, ?_, (focusFlat_acts i d s).2⟩
      intro e he
      left
      rcases List.mem_append.mp he with he | he
      · unfold mapOnce at he
        split at he
        · simp at he
        · simp at he; exact ⟨_, _, he⟩
      · split at he
        · unfold mapOnce at he
          split at he
          · simp at he
          · simp at he; exact ⟨_, _, he⟩
        · simp at he

/-! ## The critical section -/

theorem idx_switchTo_windowed {i : Word} {d : CoreDescriptor} {s : State} (h : s.row i = some d)
    (hf : s.flat = false) : (s.switchTo i).focus.idx = some i := by
  rw [switchTo_windowed h hf]

/-- A critical section on a windowed transport, of a body that leaves focus, caches and windows alone. -/
theorem withFocus_windowed {α : Type} {i : Word} {body : State → α × State} {s : State} {es : List Event}
    {lg : List LogEntry} (hf : s.flat = false)
    (hb : Body (s.irqMask.2.switchTo i) (body (s.irqMask.2.switchTo i)).2 es lg) :
    Acts s (s.withFocus i body).2 (s.enterEvents i ++ es ++ s.leaveEvents i) lg ∧
      (s.withFocus i body).1 = (body (s.irqMask.2.switchTo i)).1 ∧
      (s.withFocus i body).2.mapReg = s.mapReg ∧ (s.withFocus i body).2.mapWrap = s.mapWrap ∧
      (s.withFocus i body).2.irqSaved = none ∧
      (s.focusValid → (∃ d, s.row i = some d) → (s.withFocus i body).2.focus.idx = s.focusAfter i) := by
  have hm := acts_irqMask s
  have hfm : s.irqMask.2.flat = false := hf
  obtain ⟨hs, hs1, hs2, -⟩ := switchTo_windowed_acts i hfm
  have hin := (hm.trans hs).trans hb.toActs
  have hev : s.irqMask.2.switchEvents i = s.switchEvents i := switchEvents_eq rfl rfl i
  rw [hev] at hin
  have hmid : ((s.irqMask.2.switchTo i).mapReg = s.mapReg) ∧ (s.irqMask.2.switchTo i).mapWrap = s.mapWrap :=
    ⟨hs1, hs2⟩
  have hflat : (body (s.irqMask.2.switchTo i)).2.flat = false := by
    unfold State.flat; rw [hin.cfg]; exact hf
  have hidx : ∀ d, s.row i = some d → (body (s.irqMask.2.switchTo i)).2.focus.idx = some i := by
    intro d hd
    rw [hb.focus]
    exact idx_switchTo_windowed (d := d) (show s.row i = some d from hd) hfm
  unfold State.withFocus State.leaveEvents State.focusAfter State.enterEvents
  cases hp : s.focus.idx with
  | none =>
    dsimp only
    refine ⟨?_, by trivial, hb.mapReg.trans hmid.1, hb.mapWrap.trans hmid.2, rfl, ?_⟩
    · simpa [List.append_assoc] using hin.trans (acts_irqRestore s.irqMask.1 _)
    · rintro - ⟨d, hd⟩
      exact hidx d hd
  | some p =>
    dsimp only
    by_cases hpi : p = i
    · subst hpi
      simp only [if_true]
      refine ⟨?_, by trivial, hb.mapReg.trans hmid.1, hb.mapWrap.trans hmid.2, rfl, ?_⟩
      · simpa [List.append_assoc] using hin.trans (acts_irqRestore s.irqMask.1 _)
      · rintro - ⟨d, hd⟩
        exact hidx d hd
    · simp only [hpi, if_false]
      obtain ⟨ho, ho1, ho2, -⟩ := switchTo_windowed_acts p hflat
      have hev2 : (body (s.irqMask.2.switchTo i)).2.switchEvents p = s.switchEvents p :=
        switchEvents_eq hin.table hin.cfg p
      rw [hev2] at ho
      refine ⟨?_, by trivial, ho1.trans (hb.mapReg.trans hmid.1), ho2.trans (hb.mapWrap.trans hmid.2), rfl, ?_⟩
      · simpa [List.append_assoc] using (hin.trans ho).trans (acts_irqRestore s.irqMask.1 _)
      · rintro hv -
        obtain ⟨dp, hdp⟩ := (row_some_iff s p).mpr (hv p hp)
        exact idx_switchTo_windowed (d := dp) (by rw [row_eq hin.table]; exact hdp) hflat

/-- Inside a critical section on a core with a wrapper and two windows, the wrapper's registers are reached at
the wrapper's address. -/
theorem wrapperPa_switchTo {i : Word} {d : CoreDescriptor} {wb : Addr} {s : State} (h : s.row i = some d)
    (hw : d.wrapperAddr = some wb) (hf : s.flat = false) (hc : s.cfg.windowCount = 2) (x : Addr) :
    (s.switchTo i).wrapperPa wb x = wb + x := by
  rw [switchTo_windowed h hf]
  have : (s.cfg.transport == Transport.flat) = false := hf
  simp [State.wrapperPa, State.flat, hw, hc, this]

theorem wrapperPa_flat {s : State} (hf : s.flat = true) (wb x : Addr) : s.wrapperPa wb x = wb + x := by
  simp [State.wrapperPa, hf]

end Sys2Proof.Machine
end

