-- ==== Sys2Proof/Laws/Legacy.lean ====
section
/-! SUPPORT. The legacy walk, said once: what a slot's identification and a bus of slots do (41_topology_scan.md R230
to R235), and that the addresses they are made of are multiples of 4 (20_memory.md R75, R80). -/

namespace Sys2Proof.Machine

/-! ## Addresses -/

theorem wordAddr_aligned (k : BitVec 62) : WordAligned (wordAddr k) := by
  simp only [WordAligned, wordAddr, BitVec.toNat_append, BitVec.toNat_ofNat, Nat.zero_mod, Nat.or_zero,
    Nat.shiftLeft_eq]
  omega

theorem pageBase_aligned (k : BitVec 52) : WordAligned (pageBase k) := by
  simp only [WordAligned, pageBase, BitVec.toNat_append, BitVec.toNat_ofNat, Nat.zero_mod, Nat.or_zero,
    Nat.shiftLeft_eq]
  omega

theorem windowOffset_aligned (k : BitVec 10) : WordAligned (windowOffset k) := by
  simp only [WordAligned, windowOffset, BitVec.toNat_append, BitVec.toNat_ofNat, Nat.zero_mod, Nat.or_zero,
    Nat.shiftLeft_eq]
  omega

theorem windowOffset_lt (k : BitVec 10) : (windowOffset k).toNat < Config.windowSize.toNat := by
  have := k.isLt
  simp only [windowOffset, Config.windowSize, BitVec.toNat_append, BitVec.toNat_ofNat, Nat.zero_mod, Nat.or_zero, Nat.zero_mul, Nat.zero_or,
    Nat.shiftLeft_eq]
  omega

theorem WordAligned.add {a b : Addr} (ha : WordAligned a) (hb : WordAligned b) : WordAligned (a + b) := by
  simp only [WordAligned, BitVec.toNat_add] at *
  omega

theorem legacyBase_aligned : WordAligned Config.legacyBase := wordAddr_aligned _

theorem legacySlotSize_aligned : WordAligned Config.legacySlotSize := wordAddr_aligned _

/-- Every slot of an aligned bus is aligned. -/
theorem slotAddr_aligned {b : Addr} (h : WordAligned b) (k : Nat) : WordAligned (slotAddr b k) := by
  have := legacySlotSize_aligned
  refine h.add ?_
  simp only [WordAligned, BitVec.toNat_mul] at *
  rw [Nat.mod_mod_of_dvd _ (by decide), Nat.mul_mod, this, Nat.mul_zero, Nat.zero_mod]

@[simp] theorem slotAddr_zero (b : Addr) : slotAddr b 0 = b := by simp [slotAddr]

theorem slotAddr_succ (b : Addr) (k : Nat) : slotAddr b (k + 1) = slotAddr b k + Config.legacySlotSize := by
  simp only [slotAddr, BitVec.ofNat_add, BitVec.add_mul, BitVec.add_assoc]
  simp

/-! ## One slot -/

/-- `Acts`, with focus, caches and mask as they were, and REG left at `reg`. -/
structure Probe (s t : State) (es : List Event) (reg : Addr) : Prop extends Acts s t es [] where
  focus : t.focus = s.focus
  mapReg : t.mapReg = s.mapReg
  mapWrap : t.mapWrap = s.mapWrap
  irqSaved : t.irqSaved = s.irqSaved
  reg : t.winReg = reg
  wrap : t.winWrap = s.winWrap

theorem Body.probe {s t : State} {es : List Event} (h : Body s t es []) : Probe s t es s.winReg :=
  ⟨h.toActs, h.focus, h.mapReg, h.mapWrap, h.irqSaved, h.still.1, h.still.2⟩

theorem Probe.trans {s t u : State} {a b : List Event} {x y : Addr} (h : Probe s t a x) (k : Probe t u b y) :
    Probe s u (a ++ b) y :=
  ⟨h.toActs.trans k.toActs, k.focus.trans h.focus, k.mapReg.trans h.mapReg, k.mapWrap.trans h.mapWrap,
    k.irqSaved.trans h.irqSaved, k.reg, k.wrap.trans h.wrap⟩

theorem Probe.flat {s t : State} {es : List Event} {reg : Addr} (h : Probe s t es reg) : t.flat = s.flat := by
  unfold State.flat; rw [h.cfg]

/-- Selecting a page: at most one WinSet, which leaves REG at the page on a windowed transport. -/
theorem selectPage_probe (base : Addr) (again : Bool) (s : State) :
    Probe s (s.selectPage base again)
      (if s.flat = true ∨ (s.winReg = base ∧ again = false) then [] else [.winSet .reg base])
      (if s.flat then s.winReg else base) := by
  unfold State.selectPage
  cases hf : s.flat
  · by_cases hr : s.winReg = base ∧ again = false
    · obtain ⟨h1, h2⟩ := hr
      simpa [h1, h2] using (Body.refl s).probe
    · have : ¬ ((s.winReg == base && !again) = true) := by simpa using hr
      simp only [Bool.false_or, this, Bool.false_eq_true, if_false, false_or, hr]
      exact ⟨acts_winSet .reg base s, rfl, rfl, rfl, rfl, rfl, rfl⟩
  · simpa using (Body.refl s).probe

/-- A run of the parameter procedure on a slot. -/
theorem SlotProc.run_probe (slot : Addr) (p : SlotProc) (s : State) :
    ∃ es reg, Probe s (p.run slot s).2 es reg ∧
      IsIdentify s.flat slot p s.winReg es (p.run slot s).1 reg := by
  induction p generalizing s with
  | done id => exact ⟨[], _, (Body.refl s).probe, rfl, rfl, rfl⟩
  | raise c => exact ⟨[], _, (Body.refl s).probe, rfl, rfl, rfl⟩
  | map b n next ih =>
    obtain ⟨es, reg, hp, hi⟩ := ih (s.map b n)
    exact ⟨_, _, (body_map b n s).probe.trans hp, es, rfl, hi⟩
  | read again page word next ih =>
    have h1 := selectPage_probe (slot + pageBase page) again s
    have h2 := (body_memRead .plain
      ((s.selectPage (slot + pageBase page) again).pagePa (slot + pageBase page) word)
      (s.selectPage (slot + pageBase page) again)).probe
    obtain ⟨es, reg, hp, hi⟩ := ih ((s.selectPage (slot + pageBase page) again).memRead .plain
      ((s.selectPage (slot + pageBase page) again).pagePa (slot + pageBase page) word)).1
      ((s.selectPage (slot + pageBase page) again).memRead .plain
      ((s.selectPage (slot + pageBase page) again).pagePa (slot + pageBase page) word)).2
    have hpa : (s.selectPage (slot + pageBase page) again).pagePa (slot + pageBase page) word =
        slot + pageBase page + windowOffset word := by
      unfold State.pagePa
      rw [h1.flat, h1.reg]
      cases s.flat <;> simp
    rw [(h1.trans h2).flat, h2.reg, h1.reg] at hi
    refine ⟨_, _, (h1.trans h2).trans hp, _, es, ?_, hi⟩
    rw [hpa]
    simp only [List.append_assoc, List.cons_append, List.nil_append]

/-! ## A bus of slots -/

/-- The state with these staged rows. -/
def State.withRows (rows : List CoreDescriptor) (s : State) : State :=
  { s with scan := { s.scan with rows := rows } }

@[simp] theorem withRows_params (rows : List CoreDescriptor) (s : State) :
    (s.withRows rows).params = s.params := rfl
@[simp] theorem withRows_cfg (rows : List CoreDescriptor) (s : State) : (s.withRows rows).cfg = s.cfg := rfl
@[simp] theorem withRows_flat (rows : List CoreDescriptor) (s : State) : (s.withRows rows).flat = s.flat := rfl
@[simp] theorem withRows_winReg (rows : List CoreDescriptor) (s : State) :
    (s.withRows rows).winReg = s.winReg := rfl
@[simp] theorem withRows_rows (rows : List CoreDescriptor) (s : State) :
    (s.withRows rows).scan.rows = rows := rfl
@[simp] theorem withRows_self (s : State) : s.withRows s.scan.rows = s := rfl
@[simp] theorem withRows_withRows (a b : List CoreDescriptor) (s : State) :
    (s.withRows a).withRows b = s.withRows b := rfl

/-- Staging rows commutes with a probe. -/
theorem Probe.withRows {s t : State} {es : List Event} {reg : Addr} (h : Probe s t es reg)
    (rows : List CoreDescriptor) : Probe (s.withRows rows) (t.withRows rows) es reg :=
  ⟨⟨⟨h.trace, h.mem, h.device, h.winReg, h.winWrap, h.params, h.script, h.answered⟩, h.log, h.attached, h.busy,
    h.cfg, h.table, h.bws, h.oob, h.scanStatus, by simp only [State.withRows, h.scan], h.commands, h.response,
    h.traceMark, h.attachMark, h.resetting⟩, h.focus, h.mapReg, h.mapWrap, h.irqSaved, h.reg, h.wrap⟩

/-- A part of the walk, from `s` with its own rows, that ended as `e` says. -/
def Walks (s : State) (r : Walked Unit) (es : List Event) (e : WalkEnd) : Prop :=
  Probe (s.withRows e.rows) r.2 es e.reg ∧ r.1 = e.result

/-- The slots of one bus, from slot `k` on, where `onSub` does what `sub` says of the sub-buses. -/
theorem walkSlots_spec {p : Params} {f : Family} {flat : Bool} {onSub : LegacyIdent → State → Walked Unit}
    {sub : LegacyIdent → Addr → List CoreDescriptor → List Event → WalkEnd → Prop}
    (hsub : ∀ id (s : State), s.params = p → s.cfg.family = f → s.flat = flat →
      ∃ es e, Walks s (onSub id s) es e ∧ sub id s.winReg s.scan.rows es e)
    (b : Addr) (n k : Nat) (s : State) (hp : s.params = p) (hf : s.cfg.family = f) (hfl : s.flat = flat) :
    ∃ es e, Walks s (walkSlots onSub n (slotAddr b k) s) es e ∧
      IsSlots p f flat sub b n k s.winReg s.scan.rows es e := by
  induction n generalizing k s with
  | zero => exact ⟨[], ⟨.ok (), s.winReg, s.scan.rows⟩, ⟨(Body.refl s).probe, rfl⟩, rfl, rfl⟩
  | succ n ih =>
    obtain ⟨es1, reg1, h1, hi⟩ := (Config.legacyIdentify (slotAddr b k)).run_probe (slotAddr b k) s
    have hrows : ((Config.legacyIdentify (slotAddr b k)).run (slotAddr b k) s).2.scan.rows = s.scan.rows := by
      rw [h1.scan]
    unfold walkSlots
    rw [hfl] at hi
    generalize (Config.legacyIdentify (slotAddr b k)).run (slotAddr b k) s = r at *
    obtain ⟨res, t⟩ := r
    dsimp only at *
    have hfl1 : t.flat = flat := h1.flat.trans hfl
    have hp1 : t.params = p := h1.params.trans hp
    have hf1 : t.cfg.family = f := by rw [h1.cfg, hf]
    cases res with
    | error c =>
      exact ⟨es1, ⟨.error c, reg1, s.scan.rows⟩, ⟨h1, rfl⟩, es1, .error c, reg1, [], hi, by simp, rfl, rfl⟩
    | ok id =>
      by_cases hs : id.isSub = true
      · obtain ⟨es3, e3, ⟨h3, hr3⟩, hs3⟩ := hsub id t hp1 hf1 hfl1
        rw [h1.reg, hrows] at hs3
        simp only [hs, if_true, hr3]
        cases he : e3.result with
        | error c =>
          refine ⟨es1 ++ es3, e3, ⟨(h1.withRows _).trans h3, by rw [he]⟩, es1, .ok id, reg1, es3, hi, rfl, ?_⟩
          simp only [hs, if_true]
          exact ⟨es3, [], e3, hs3, by simp, by simp [he]⟩
        | ok u =>
          obtain ⟨es4, e, ⟨h4, hr4⟩, hs4⟩ := ih (k + 1) (onSub id t).2 (h3.params.trans hp1)
            (by rw [h3.cfg]; exact hf1) (h3.flat.trans hfl1)
          rw [slotAddr_succ] at h4 hr4
          have hr : (onSub id t).2.scan.rows = e3.rows := by rw [h3.scan]; rfl
          rw [h3.reg, hr] at hs4
          refine ⟨es1 ++ (es3 ++ es4), e, ⟨?_, hr4⟩, es1, .ok id, reg1, es3 ++ es4, hi, rfl, ?_⟩
          · exact (h1.withRows e.rows).trans ((h3.withRows e.rows).trans h4)
          · simp only [hs, if_true]
            exact ⟨es3, es4, e3, hs3, rfl, by simpa [he] using hs4⟩
      · simp only [hs, hrows, hp1, Bool.false_eq_true, if_false]
        by_cases hm : s.scan.rows.length = p.maxCores
        · simp only [hm, if_true]
          refine ⟨es1, ⟨.error .tableFull, reg1, s.scan.rows⟩, ⟨h1, rfl⟩, es1, .ok id, reg1, [], hi, by simp, ?_⟩
          simp [hs, hm]
        · simp only [hm, if_false]
          obtain ⟨es4, e, ⟨h4, hr4⟩, hs4⟩ := ih (k + 1)
            (t.withRows (s.scan.rows ++ [rowOfSlot p f s.scan.rows.length (slotAddr b k) id])) hp1 hf1 hfl1
          rw [slotAddr_succ] at h4 hr4
          have hrow : t.legacyRow (slotAddr b k) id =
              rowOfSlot p f s.scan.rows.length (slotAddr b k) id := by
            simp only [State.legacyRow, rowOfSlot, hrows, hp1, hf1]
          rw [hrow, ← hp1] at *
          refine ⟨es1 ++ es4, e, ⟨(h1.withRows e.rows).trans h4, hr4⟩, es1, .ok id, reg1, es4, hi, rfl, ?_⟩
          simp only [hs, hm, if_false]
          rw [withRows_winReg, h1.reg] at hs4
          exact hs4

/-- A bus at depth 2. -/
theorem walkSubBus_spec (id : LegacyIdent) (s : State) :
    ∃ es e, Walks s (walkSubBus id s) es e ∧
      IsSubWalk s.params s.cfg.family s.flat id s.winReg s.scan.rows es e := by
  have := walkSlots_spec (onSub := fun _ t => (.ok (), t))
    (sub := fun _ reg rows es e => es = [] ∧ e = { result := .ok (), reg := reg, rows := rows })
    (fun _ t _ _ _ => ⟨[], ⟨.ok (), t.winReg, t.scan.rows⟩, ⟨(Body.refl t).probe, rfl⟩, rfl, rfl⟩) (wordAddr id.subBase) id.subCount.toNat 0 s
    rfl rfl rfl
  rwa [slotAddr_zero] at this

/-- The main bus, at depth 1. -/
theorem mainWalk_spec (n : Nat) (s : State) (h : s.scan.rows = []) :
    ∃ es e, Walks s (walkSlots walkSubBus n Config.legacyBase s) es e ∧
      IsMainWalk s.params s.cfg.family s.flat n s.winReg es e := by
  have := walkSlots_spec (p := s.params) (f := s.cfg.family) (flat := s.flat) (onSub := walkSubBus)
    (sub := IsSubWalk s.params s.cfg.family s.flat)
    (fun id t hp hf hfl => by have := walkSubBus_spec id t; rwa [hp, hf, hfl] at this)
    Config.legacyBase n 0 s rfl rfl rfl
  rw [slotAddr_zero, h] at this
  exact this

end Sys2Proof.Machine
end

