-- ==== Sys2Proof/Laws/Lifecycle.lean ====
section
/-! SUPPORT. The bodies of the lifecycle commands and of the timeout monitor, said once. -/

namespace Sys2Proof.Machine

/-- DisableBody, where the wrapper's registers are reached at its address. -/
theorem disableBody_body (ioBits : Word) (wb : Addr) (s : State) (hpa : ∀ x, s.wrapperPa wb x = wb + x) :
    ∃ es lg, Body s (disableBody ioBits wb s).2 es lg ∧ IsDisable s.params wb ioBits es lg := by
  have hr := wrapRead_body wb Config.resetCtrl s
  unfold disableBody
  dsimp only
  split
  · rename_i h
    refine ⟨_, _, hr, .inl ⟨_, ?_, by rw [hpa], rfl⟩⟩
    have := congrArg (fun v : BitVec 1 => v.getLsbD 0) h
    simpa [field] using this
  · rename_i h
    obtain ⟨wait, tol, hw, hwait⟩ := twoTierWait_body wb (s.wrapRead wb Config.resetCtrl).2
    rw [hr.params, hr.wrapperPa, hpa] at hwait
    have h1 := (hr.trans hw).trans (wrapWrite_body wb Config.resetCtrl 1#32 _)
    have h2 := h1.trans (wrapRead_body wb Config.resetCtrl _)
    have h3 := h2.trans (body_delay s.params.dlyDisReset _)
    have h4 := h3.trans (wrapWrite_body wb Config.ioCtrl ioBits _)
    have h5 := h4.trans (wrapRead_body wb Config.ioCtrl _)
    have h6 := h5.trans (body_delay s.params.dlyDisIo _)
    rw [(hr.trans hw).wrapperPa, h1.wrapperPa, h3.wrapperPa, h4.wrapperPa, hpa, hpa] at h6
    simp only [h1.params, h4.params]
    simp only [List.append_assoc, List.cons_append, List.nil_append, List.append_nil] at h6
    refine ⟨_, _, h6, .inr ⟨_, _, _, wait, tol, ?_, hwait, rfl, rfl⟩⟩
    by_contra hc
    apply h
    have : (s.wrapRead wb Config.resetCtrl).1.getLsbD 0 = true := by simpa using hc
    apply BitVec.eq_of_getLsbD_eq
    intro k hk
    have : k = 0 := by omega
    subst this
    simpa [field]

/-- The reset self-clear loop. -/
theorem clearReset_body (wb : Addr) (n : Nat) (s : State) (hpa : ∀ x, s.wrapperPa wb x = wb + x) :
    ∃ es lg, Body s (s.clearReset wb n).2 es lg ∧ IsClearLoop s.params wb n es lg (s.clearReset wb n).1 := by
  induction n generalizing s with
  | zero => exact ⟨[], [], Body.refl s, rfl, rfl, rfl⟩
  | succ n ih =>
    obtain ⟨wait, tol, hw, hwait⟩ := shortWait_body wb s
    rw [hpa] at hwait
    have h1 := hw.trans (wrapWrite_body wb Config.resetCtrl 0#32 _)
    have h2 := h1.trans (wrapRead_body wb Config.resetCtrl _)
    rw [hw.wrapperPa, h1.wrapperPa, hpa] at h2
    unfold State.clearReset
    dsimp only
    split
    · rename_i h
      refine ⟨_, _, h2, wait, tol, (((s.shortWait wb).wrapWrite wb Config.resetCtrl 0#32).wrapRead wb
        Config.resetCtrl).1, hwait, [], [], by simp, by simp, .inl ⟨h, rfl, rfl, rfl⟩⟩
    · rename_i h
      obtain ⟨es, lg, hb, hl⟩ := ih _ (fun x => by rw [h2.wrapperPa, hpa])
      rw [h2.params] at hl
      exact ⟨_, _, h2.trans hb, wait, tol, (((s.shortWait wb).wrapWrite wb Config.resetCtrl 0#32).wrapRead wb
        Config.resetCtrl).1, hwait, es, lg, by simp, by simp, .inr ⟨h, hl⟩⟩

/-- ResetBody. -/
theorem resetBody_body (io ro : Word) (wb : Addr) (s : State) (hpa : ∀ x, s.wrapperPa wb x = wb + x) :
    ∃ es lg, Body s (resetBody io ro wb s).2 es lg ∧ IsReset s.params wb io ro es lg := by
  obtain ⟨w1, t1, hw1, hwait1⟩ := twoTierWait_body wb s
  have h1 := hw1.trans (wrapWrite_body wb Config.resetCtrl 1#32 _)
  have h2 := h1.trans (body_delay s.params.dlyRstAssert _)
  obtain ⟨w2, t2, hw2, hwait2⟩ := shortWait_body wb
    (((s.twoTierWait wb).wrapWrite wb Config.resetCtrl 1#32).delay s.params.dlyRstAssert)
  rw [h2.params, h2.wrapperPa, hpa] at hwait2
  have h3 := (h2.trans hw2).trans (wrapWrite_body wb Config.ioCtrl
    (io ||| ro ||| Config.forceClock ||| Config.clockEn) _)
  obtain ⟨w3, t3, hw3, hwait3⟩ := shortWait_body wb
    (((((s.twoTierWait wb).wrapWrite wb Config.resetCtrl 1#32).delay s.params.dlyRstAssert).shortWait wb).wrapWrite
      wb Config.ioCtrl (io ||| ro ||| Config.forceClock ||| Config.clockEn))
  rw [h3.params, h3.wrapperPa, hpa] at hwait3
  have h4 := h3.trans hw3
  obtain ⟨el, ll, hl, hloop⟩ := clearReset_body wb s.params.resetRetries
    ((((((s.twoTierWait wb).wrapWrite wb Config.resetCtrl 1#32).delay s.params.dlyRstAssert).shortWait wb).wrapWrite
      wb Config.ioCtrl (io ||| ro ||| Config.forceClock ||| Config.clockEn)).shortWait wb)
    (fun x => by rw [h4.wrapperPa, hpa])
  rw [h4.params] at hloop
  have h5 := h4.trans hl
  unfold resetBody
  dsimp only
  simp only [h1.params, h4.params]
  generalize hcl : (((((((s.twoTierWait wb).wrapWrite wb Config.resetCtrl 1#32).delay
    s.params.dlyRstAssert).shortWait wb).wrapWrite wb Config.ioCtrl
      (io ||| ro ||| Config.forceClock ||| Config.clockEn)).shortWait wb).clearReset wb
        s.params.resetRetries) = r at *
  rw [hpa] at hwait1
  have hthree : io ||| ro ||| Config.forceClock ||| Config.clockEn = io ||| ro ||| 3#32 := by
    rw [BitVec.or_assoc (io ||| ro)]; rfl
  have hend : ∀ u : State, ∀ lg', Body s u (w1 ++ [.memWrite .plain (wb + Config.resetCtrl) 1#32,
        .delay s.params.dlyRstAssert] ++ w2 ++
        [.memWrite .plain (wb + Config.ioCtrl) (io ||| ro ||| 3#32)] ++ w3 ++ el) lg' →
      Body s ((((u.wrapWrite wb Config.ioCtrl (io ||| Config.clockEn)).wrapRead wb Config.ioCtrl).2).delay
        (u.wrapWrite wb Config.ioCtrl (io ||| Config.clockEn)).params.dlyRstFinal)
        (w1 ++ [.memWrite .plain (wb + Config.resetCtrl) 1#32, .delay s.params.dlyRstAssert] ++ w2 ++
        [.memWrite .plain (wb + Config.ioCtrl) (io ||| ro ||| 3#32)] ++ w3 ++ el ++
        [.memWrite .plain (wb + Config.ioCtrl) (io ||| 1#32), .memRead .plain (wb + Config.ioCtrl)
          ((u.wrapWrite wb Config.ioCtrl (io ||| Config.clockEn)).wrapRead wb Config.ioCtrl).1,
          .delay s.params.dlyRstFinal]) lg' := by
    intro u lg' hu
    have k1 := hu.trans (wrapWrite_body wb Config.ioCtrl (io ||| Config.clockEn) _)
    have k2 := k1.trans (wrapRead_body wb Config.ioCtrl _)
    have k3 := k2.trans (body_delay s.params.dlyRstFinal _)
    rw [hu.wrapperPa, k1.wrapperPa, hpa] at k3
    rw [k1.params]
    simpa [List.append_assoc, Config.clockEn] using k3
  have h5' : Body s r.2 (w1 ++ [.memWrite .plain (wb + Config.resetCtrl) 1#32,
        .delay s.params.dlyRstAssert] ++ w2 ++
        [.memWrite .plain (wb + Config.ioCtrl) (io ||| ro ||| 3#32)] ++ w3 ++ el)
      (pendingLog wb t1 ++ pendingLog wb t2 ++ pendingLog wb t3 ++ ll) := by
    rw [hw1.wrapperPa, (h2.trans hw2).wrapperPa, hpa, hpa, hthree] at h5
    simpa [List.append_assoc] using h5
  cases hr : r.1
  · rw [hr] at hloop
    refine ⟨_, _, hend _ _ (by simpa using h5'.trans (body_logEntry (.timeoutTolerated .resetStuck wb) _)),
      w1, w2, w3, el, t1, t2, t3, false, ll, _, hwait1, hwait2, hwait3, hloop, rfl, by simp⟩
  · rw [hr] at hloop
    refine ⟨_, _, hend _ _ (by simpa using h5'),
      w1, w2, w3, el, t1, t2, t3, true, ll, _, hwait1, hwait2, hwait3, hloop, rfl, by simp⟩

/-! ## IS_UP -/

/-- IsUpBody, where the wrapper's registers are reached at its address. -/
theorem isUpBody_body (wb : Addr) (s : State) (hpa : ∀ x, s.wrapperPa wb x = wb + x) :
    ∃ es, Body s (isUpBody wb s).2 es [] ∧
      ((∃ io : Word, io.extractLsb' 0 2 ≠ 1#2 ∧ (isUpBody wb s).1 = 0#32 ∧
          es = [.memRead .plain (wb + Config.ioCtrl) io]) ∨
       (∃ io r : Word, io.extractLsb' 0 2 = 1#2 ∧
          (isUpBody wb s).1 = (if r.getLsbD 0 then 0#32 else 1#32) ∧
          es = [.memRead .plain (wb + Config.ioCtrl) io, .memRead .plain (wb + Config.resetCtrl) r])) := by
  have hbits : ∀ v : Word, (v &&& (Config.forceClock ||| Config.clockEn) = Config.clockEn) ↔
      v.extractLsb' 0 2 = 1#2 := by
    intro v
    constructor
    · intro h
      have h0 := congrArg (fun x : Word => x.getLsbD 0) h
      have h1 := congrArg (fun x : Word => x.getLsbD 1) h
      simp [Config.forceClock, Config.clockEn] at h0 h1
      apply BitVec.eq_of_getLsbD_eq
      intro k hk
      have : k = 0 ∨ k = 1 := by omega
      rcases this with rfl | rfl <;> simp [h0, h1]
    · intro h
      have h0 := congrArg (fun x : BitVec 2 => x.getLsbD 0) h
      have h1 := congrArg (fun x : BitVec 2 => x.getLsbD 1) h
      simp at h0 h1
      apply BitVec.eq_of_getLsbD_eq
      intro k hk
      by_cases k0 : k = 0
      · subst k0; simp [Config.forceClock, Config.clockEn, h0]
      · by_cases k1 : k = 1
        · subst k1; simp [Config.forceClock, Config.clockEn, h1]
        · have e1 : (1#32).getLsbD k = false := by
            simp [BitVec.getLsbD_one, k0]
          have e2 : (3#32).getLsbD k = false := by
            have : (3#32) = 1#32 ||| 2#32 := rfl
            rw [this, BitVec.getLsbD_or, e1, Bool.false_or]
            have : (2#32) = BitVec.twoPow 32 1 := rfl
            rw [this, BitVec.getLsbD_twoPow]
            simp; omega
          show (v &&& 3#32).getLsbD k = (1#32).getLsbD k
          rw [BitVec.getLsbD_and, e1, e2, Bool.and_false]
  have hv := wrapRead_body wb Config.ioCtrl s
  unfold isUpBody
  dsimp only
  split
  · rename_i h
    have h2 := hv.trans (wrapRead_body wb Config.resetCtrl _)
    rw [hv.wrapperPa, hpa, hpa] at h2
    refine ⟨_, h2, .inr ⟨_, _, (hbits _).mp h, ?_, rfl⟩⟩
    have : ∀ r : Word, (field r 0 1 = 0#1) ↔ r.getLsbD 0 = false := by
      intro r
      constructor
      · intro h
        have := congrArg (fun x : BitVec 1 => x.getLsbD 0) h
        simpa [field] using this
      · intro h
        apply BitVec.eq_of_getLsbD_eq
        intro k hk
        have : k = 0 := by omega
        subst this
        simpa [field] using h
    cases hb : ((s.wrapRead wb Config.ioCtrl).2.wrapRead wb Config.resetCtrl).1.getLsbD 0
    · rw [if_pos ((this _).mpr hb), if_neg (by simp)]
    · rw [if_neg (by rw [this, hb]; simp), if_pos rfl]
  · rename_i h
    rw [hpa] at hv
    exact ⟨_, hv, .inl ⟨_, fun hc => h ((hbits _).mpr hc), rfl, rfl⟩⟩

/-! ## The wrapper prologue and epilogue -/

/-- WithWrapper of a body that leaves focus, caches and windows alone wherever the wrapper is reached. -/
theorem withWrapper_spec {α : Type} {i : Word} {d : CoreDescriptor} {wb : Addr} {body : State → α × State}
    {s : State} {Q : List Event → List LogEntry → α → Prop} (hr : s.WrapperReachable i d wb)
    (hb : ∀ u : State, u.params = s.params → (∀ x, u.wrapperPa wb x = wb + x) →
      ∃ es lg, Body u (body u).2 es lg ∧ Q es lg (body u).1) :
    ∃ es lg, Acts s (s.withWrapper i wb body).2 (s.wrapperEnter i wb ++ es ++ s.wrapperLeave i) lg ∧
      Q es lg (s.withWrapper i wb body).1 ∧
      (s.flat = true → (s.SameFocus (s.withWrapper i wb body).2) ∧
        (s.withWrapper i wb body).2.mapReg = s.mapReg ∧
        (s.withWrapper i wb body).2.mapWrap = cacheOnce s.mapWrap i.toNat wb) ∧
      (s.flat = false → (s.withWrapper i wb body).2.mapReg = s.mapReg ∧
        (s.withWrapper i wb body).2.mapWrap = s.mapWrap ∧ (s.withWrapper i wb body).2.irqSaved = none ∧
        (s.withWrapper i wb body).2.focus.idx = s.focusAfter i) := by
  cases hf : s.flat
  · obtain ⟨hc, hv⟩ := hr.windows hf
    have hfm : s.irqMask.2.flat = false := hf
    obtain ⟨es, lg, hbody, hq⟩ := hb (s.irqMask.2.switchTo i)
      (by obtain ⟨e, h, -⟩ := switchTo_acts i s.irqMask.2; exact h.params)
      (fun x => wrapperPa_switchTo (d := d) (s := s.irqMask.2) hr.row hr.wrapper hfm hc x)
    obtain ⟨ha, h1, h2, h3, h4, h5⟩ := withFocus_windowed hf hbody
    refine ⟨es, lg, ?_, ?_, by simp, fun _ => ⟨?_, ?_, ?_, ?_⟩⟩
    · simpa [State.withWrapper, State.wrapperEnter, State.wrapperLeave, hf] using ha
    · simpa [State.withWrapper, hf, h1] using hq
    · simpa [State.withWrapper, hf] using h2
    · simpa [State.withWrapper, hf] using h3
    · simpa [State.withWrapper, hf] using h4
    · simpa [State.withWrapper, hf] using h5 hv ⟨d, hr.row⟩
  · obtain ⟨ha, hw, hm, hsf⟩ := mapWrapper_acts i wb s
    have hflat : (s.mapWrapper i wb).flat = true := by unfold State.flat; rw [ha.cfg]; exact hf
    obtain ⟨es, lg, hbody, hq⟩ := hb (s.mapWrapper i wb) ha.params (fun x => wrapperPa_flat hflat wb x)
    refine ⟨es, lg, ?_, ?_, fun _ => ⟨⟨?_, ?_, ?_, ?_⟩, ?_, ?_⟩, by simp⟩
    · have := ha.trans hbody.toActs
      have hen : s.wrapperEnter i wb = mapOnce (cacheGet s.mapWrap i.toNat) wb := by
        simp [State.wrapperEnter, hf, mapOnce]
          <;> cases cacheGet s.mapWrap i.toNat <;> rfl
      simpa [State.withWrapper, State.wrapperLeave, hf, hen] using this
    · simpa [State.withWrapper, hf] using hq
    · simpa [State.withWrapper, hf] using hbody.focus.trans hsf.focus
    · simpa [State.withWrapper, hf] using hbody.still.1.trans hsf.winReg
    · simpa [State.withWrapper, hf] using hbody.still.2.trans hsf.winWrap
    · simpa [State.withWrapper, hf] using hbody.irqSaved.trans hsf.irqSaved
    · simpa [State.withWrapper, hf] using hbody.mapReg.trans hm
    · simpa [State.withWrapper, hf] using hbody.mapWrap.trans hw

/-- A body run as a RESET does what it does, and no RESET is in progress that was not before (R58). -/
theorem whileResetting_acts {α : Type} {i : Word} {body : State → α × State} {s : State} {es : List Event}
    {lg : List LogEntry} (h : Acts { s with resetting := some i } (body { s with resetting := some i }).2 es lg) :
    Acts s (s.whileResetting i body).2 es lg :=
  ⟨⟨h.trace, h.mem, h.device, h.winReg, h.winWrap, h.params, h.script, h.answered⟩, h.log, h.attached, h.busy,
    h.cfg, h.table, h.bws, h.oob, h.scanStatus, h.scan, h.commands, h.response, h.traceMark, h.attachMark, rfl⟩

/-! ## The reference device (D35) -/

theorem pageBase_toNat (k : BitVec 52) : (pageBase k).toNat = 4096 * k.toNat := by
  simp only [pageBase, BitVec.toNat_append, BitVec.toNat_ofNat, Nat.zero_mod, Nat.or_zero, Nat.shiftLeft_eq]
  omega

/-- A register of a page is a status register exactly if its page is listed and its offset is one of the two. -/
theorem isStatusRegister_page (pages : List (BitVec 52)) (p : BitVec 52) (x : Addr) (h : x.toNat < 4096) :
    isStatusRegister pages (pageBase p + x) = true ↔
      p ∈ pages ∧ (x = Config.resetStatus ∨ x = Config.errLogStatus) := by
  have key : ∀ (q : BitVec 52) (y : Addr), y.toNat < 4096 →
      (pageBase p + x = pageBase q + y ↔ q = p ∧ x = y) := by
    intro q y hy
    have := p.isLt
    have := q.isLt
    rw [← BitVec.toNat_inj, ← BitVec.toNat_inj, ← BitVec.toNat_inj, BitVec.toNat_add, BitVec.toNat_add,
      pageBase_toNat, pageBase_toNat]
    omega
  simp only [isStatusRegister, List.any_eq_true, Bool.or_eq_true, beq_iff_eq]
  constructor
  · rintro ⟨q, hq, hc | hc⟩
    · obtain ⟨rfl, rfl⟩ := (key q _ (by decide)).mp hc
      exact ⟨hq, .inl rfl⟩
    · obtain ⟨rfl, rfl⟩ := (key q _ (by decide)).mp hc
      exact ⟨hq, .inr rfl⟩
  · rintro ⟨hp, rfl | rfl⟩
    · exact ⟨p, hp, .inl rfl⟩
    · exact ⟨p, hp, .inr rfl⟩

/-- `RESETCTRL`, `IOCTRL` and `IOSTATUS` of a page keep what is written to them. -/
theorem referenceAnswer_page (pages : List (BitVec 52)) (m : Memory) (p : BitVec 52) (x : Addr)
    (h : x = Config.resetCtrl ∨ x = Config.ioCtrl ∨ x = Config.ioStatus) :
    referenceAnswer pages m (pageBase p + x) = m.readWord (pageBase p + x) := by
  have hx : x.toNat < 4096 := by rcases h with rfl | rfl | rfl <;> decide
  have hn : ¬ isStatusRegister pages (pageBase p + x) = true := by
    rw [isStatusRegister_page pages p x hx]
    rintro ⟨-, h2⟩
    rcases h with rfl | rfl | rfl <;> rcases h2 with h2 | h2 <;> exact absurd h2 (by decide)
  simp only [referenceAnswer, hn, if_false, Bool.false_eq_true]

/-! ## The timeout monitor -/

/-- ARM_TIMEOUTS, every bridge. -/
theorem armBridges_body (bs : List Addr) (s : State) :
    Body s (s.armBridges bs) (bs.flatMap (fun b => [.map b Config.coreWindowSize,
      .memWrite .plain (b + Config.errLogCtrl) (errLogCtrlValue s.params.timeoutExp)])) [] := by
  induction bs generalizing s with
  | nil => exact Body.refl s
  | cons b rest ih =>
    have h := (body_map b Config.coreWindowSize s).trans (body_memWrite .plain (b + Config.errLogCtrl)
      (errLogCtrlValue s.params.timeoutExp) _)
    have h2 := ih (s.armBridge b)
    have hp : (s.armBridge b).params = s.params := h.params
    rw [hp] at h2
    simpa [State.armBridges] using h.trans h2

/-- The acknowledgement wait. -/
theorem waitAck_body (b : Addr) (n : Nat) (s : State) :
    ∃ es, Body s (s.waitAck b n).2 es [] ∧ IsAckWait n b es (s.waitAck b n).1 := by
  induction n generalizing s with
  | zero => exact ⟨[], Body.refl s, [], by simp, .inl ⟨rfl, rfl, rfl⟩⟩
  | succ n ih =>
    have hr := body_memRead .plain (b + Config.errLogStatus) s
    unfold State.waitAck
    dsimp only
    split
    · rename_i h
      exact ⟨_, hr, [], by simp, .inr ⟨rfl, by simp, _, h, rfl⟩⟩
    · rename_i h
      obtain ⟨es, hb, vs, hv, hcase⟩ := ih (s.memRead .plain (b + Config.errLogStatus)).2
      refine ⟨_, hr.trans hb, (s.memRead .plain (b + Config.errLogStatus)).1 :: vs, ?_, ?_⟩
      · intro v hm
        rcases List.mem_cons.mp hm with rfl | hm
        · exact h
        · exact hv v hm
      · rcases hcase with ⟨h1, h2, h3⟩ | ⟨h1, h2, last, h3, h4⟩
        · exact .inl ⟨h1, by simp [h2], by simp [h3]⟩
        · exact .inr ⟨h1, by simp; omega, last, h3, by simp [h4]⟩

/-- The reset pulse. -/
theorem pulse_body (b : Addr) (s : State) :
    ∃ x y, Body s (s.pulse b) [.memWrite .plain (b + Config.resetCtrl) 1#32,
      .memRead .plain (b + Config.resetCtrl) x, .memWrite .plain (b + Config.resetCtrl) 0#32,
      .memRead .plain (b + Config.resetCtrl) y] [] :=
  ⟨_, _, (((body_memWrite .plain (b + Config.resetCtrl) 1#32 s).trans
    (body_memRead .plain (b + Config.resetCtrl) _)).trans
    (body_memWrite .plain (b + Config.resetCtrl) 0#32 _)).trans
    (body_memRead .plain (b + Config.resetCtrl) _)⟩

/-- One bridge of CLEAR_TIMEOUT. -/
theorem clearBridge_body (b : Addr) (s : State) :
    ∃ es, Body s (s.clearBridge b).2 es (if (s.clearBridge b).1 then [.timeoutFatal b] else []) ∧
      IsClearBridge s.params.ackPolls b es (s.clearBridge b).1 := by
  have h1 := (body_map b Config.coreWindowSize s).trans (body_memRead .plain (b + Config.errLogStatus) _)
  unfold State.clearBridge
  dsimp only
  split
  · rename_i h
    have h2 := h1.trans (body_memWrite .plain (b + Config.errLogDone) 3#32 _)
    obtain ⟨polls, hp, hack⟩ := waitAck_body b s.params.ackPolls
      (((s.map b Config.coreWindowSize).memRead .plain (b + Config.errLogStatus)).2.memWrite .plain
        (b + Config.errLogDone) 3#32)
    have hpar : ((s.map b Config.coreWindowSize).memRead .plain
      (b + Config.errLogStatus)).2.params.ackPolls = s.params.ackPolls := by rw [h1.params]
    rw [hpar]
    have h3 := h2.trans hp
    cases ha : ((((s.map b Config.coreWindowSize).memRead .plain (b + Config.errLogStatus)).2.memWrite .plain
        (b + Config.errLogDone) 3#32).waitAck b s.params.ackPolls).1
    · rw [ha] at hack
      have h4 := h3.trans (body_logEntry (.timeoutFatal b) _)
      simp only [List.cons_append, List.nil_append, List.append_nil] at h4
      refine ⟨_, by simpa using h4, _, .inr ⟨h, polls, by simpa using hack, [], ?_, .inl ⟨by simp, rfl⟩⟩⟩
      simp
    · rw [ha] at hack
      obtain ⟨x, y, hpulse⟩ := pulse_body b ((((s.map b Config.coreWindowSize).memRead .plain
        (b + Config.errLogStatus)).2.memWrite .plain (b + Config.errLogDone) 3#32).waitAck b
          s.params.ackPolls).2
      have h4 := h3.trans hpulse
      simp only [List.cons_append, List.nil_append, List.append_nil] at h4
      exact ⟨_, by simpa using h4, _, .inr ⟨h, polls, by simpa using hack, _, by simp,
        .inr ⟨by simp, x, y, rfl⟩⟩⟩
  · rename_i h
    exact ⟨_, by simpa using h1, _, .inl ⟨h, rfl, by simp⟩⟩

/-- CLEAR_TIMEOUT, every bridge. -/
theorem clearBridges_body (bs : List Addr) (s : State) :
    ∃ es left, Body s (s.clearBridges bs).2 es (left.map .timeoutFatal) ∧
      IsClearBridges s.params.ackPolls bs es left ∧ ((s.clearBridges bs).1 = false ↔ left = []) := by
  induction bs generalizing s with
  | nil => exact ⟨[], [], Body.refl s, ⟨rfl, rfl⟩, by simp [State.clearBridges]⟩
  | cons b rest ih =>
    obtain ⟨e1, h1, hc⟩ := clearBridge_body b s
    obtain ⟨e2, left, h2, hcs, hl⟩ := ih (s.clearBridge b).2
    rw [h1.params] at hcs
    cases hf : (s.clearBridge b).1
    · rw [hf] at h1 hc
      refine ⟨e1 ++ e2, left, by simpa [State.clearBridges] using h1.trans h2,
        ⟨e1, e2, false, left, rfl, hc, by simp, hcs⟩, ?_⟩
      simpa [State.clearBridges, hf] using hl
    · rw [hf] at h1 hc
      refine ⟨e1 ++ e2, b :: left, by simpa [State.clearBridges] using h1.trans h2,
        ⟨e1, e2, true, left, rfl, hc, by simp, hcs⟩, ?_⟩
      simp [State.clearBridges, hf]

end Sys2Proof.Machine
end

