-- ==== Sys2Proof/Laws/Memory.lean ====
section
/-! SUPPORT. Memory: every operation keeps the canonical form, and a byte reads back. The mapping caches. -/

namespace Sys2Proof.Machine

/-! ## Bytes -/

/-- No byte listed at or below `a` in a memory that starts above it. -/
theorem readByte_of_lt (m : Memory) (a : Nat) (h : ∀ c ∈ m, a < c.1) : m.readByte a = Memory.unlisted := by
  induction m with
  | nil => rfl
  | cons c rest ih =>
    have hc := h c (by simp)
    simp only [Memory.readByte]
    rw [if_neg (by omega)]
    exact ih (fun d hd => h d (by simp [hd]))

theorem mem_writeByte {m : Memory} {a : Nat} {b : Byte} {c : Host.Cell} (h : c ∈ m.writeByte a b) :
    c ∈ m ∨ (c = (a, b) ∧ b ≠ Memory.unlisted) := by
  induction m with
  | nil =>
    simp only [Memory.writeByte] at h
    split at h
    · simp at h
    · rename_i hb; simp at h; exact .inr ⟨h, hb⟩
  | cons d rest ih =>
    simp only [Memory.writeByte] at h
    split at h
    · split at h
      · exact .inl h
      · rename_i hb
        rcases List.mem_cons.mp h with h | h
        · exact .inr ⟨h, hb⟩
        · exact .inl h
    · split at h
      · split at h
        · exact .inl (by simp [h])
        · rename_i hb
          rcases List.mem_cons.mp h with h | h
          · exact .inr ⟨h, hb⟩
          · exact .inl (by simp [h])
      · rcases List.mem_cons.mp h with h | h
        · exact .inl (by simp [h])
        · rcases ih h with h | h
          · exact .inl (by simp [h])
          · exact .inr h

/-- Storing a byte keeps the canonical form. -/
theorem writeByte_wf {m : Memory} (a : Nat) (b : Byte) (ha : a < 2 ^ 64) (h : m.wf) : (m.writeByte a b).wf := by
  refine ⟨?_, fun c hc => ?_⟩
  · obtain ⟨hp, -⟩ := h
    induction m with
    | nil => simp only [Memory.writeByte]; split <;> simp
    | cons c rest ih =>
      rw [List.pairwise_cons] at hp
      simp only [Memory.writeByte]
      split
      · rename_i hlt
        split
        · exact List.pairwise_cons.mpr hp
        · refine List.pairwise_cons.mpr ⟨fun d hd => ?_, List.pairwise_cons.mpr hp⟩
          rcases List.mem_cons.mp hd with rfl | hd
          · exact hlt
          · exact Nat.lt_trans hlt (hp.1 d hd)
      · split
        · rename_i heq
          split
          · exact hp.2
          · exact List.pairwise_cons.mpr ⟨fun d hd => heq ▸ hp.1 d hd, hp.2⟩
        · rename_i hlt hne
          refine List.pairwise_cons.mpr ⟨fun d hd => ?_, ih hp.2⟩
          rcases mem_writeByte hd with hd | ⟨rfl, -⟩
          · exact hp.1 d hd
          · show c.1 < a
            omega
  · rcases mem_writeByte hc with hc | ⟨rfl, hb⟩
    · exact h.2 c hc
    · exact ⟨hb, ha⟩

/-- A byte reads back, and no other byte changes. -/
theorem readByte_writeByte {m : Memory} (h : m.wf) (a k : Nat) (b : Byte) :
    (m.writeByte a b).readByte k = if k = a then b else m.readByte k := by
  obtain ⟨hp, -⟩ := h
  induction m with
  | nil =>
    simp only [Memory.writeByte]
    by_cases hk : k = a
    · subst hk
      by_cases hb : b = Memory.unlisted <;> simp [hb, Memory.readByte]
    · have hk' : ¬ a = k := fun e => hk e.symm
      by_cases hb : b = Memory.unlisted <;> simp [hb, hk, hk', Memory.readByte]
  | cons c rest ih =>
    rw [List.pairwise_cons] at hp
    have ih := ih hp.2
    simp only [Memory.writeByte]
    split
    · rename_i hlt
      by_cases hb : b = Memory.unlisted
      · simp only [hb, if_true]
        by_cases hk : k = a
        · subst hk
          rw [if_pos rfl]
          exact readByte_of_lt _ _ (fun d hd => by
            rcases List.mem_cons.mp hd with rfl | hd
            · exact hlt
            · exact Nat.lt_trans hlt (hp.1 d hd))
        · simp [hk]
      · simp only [hb, if_false]
        by_cases hk : k = a
        · subst hk; simp [Memory.readByte]
        · have hk' : ¬ a = k := fun e => hk e.symm
          simp [hk, hk', Memory.readByte]
    · split
      · rename_i heq
        subst heq
        by_cases hb : b = Memory.unlisted
        · simp only [hb, if_true]
          by_cases hk : k = c.1
          · subst hk
            rw [if_pos rfl]
            exact readByte_of_lt _ _ (fun d hd => hp.1 d hd)
          · have hk' : ¬ c.1 = k := fun e => hk e.symm
            simp [hk, hk', Memory.readByte]
        · simp only [hb, if_false]
          by_cases hk : k = c.1
          · subst hk; simp [Memory.readByte]
          · have hk' : ¬ c.1 = k := fun e => hk e.symm
            simp [hk, hk', Memory.readByte]
      · rename_i hlt hne
        simp only [Memory.readByte]
        split
        · rename_i hck
          have : k ≠ a := by omega
          simp [this]
        · exact ih

/-- Storing a byte changes no other byte, in any memory. -/
theorem readByte_writeByte_other (m : Memory) {a k : Nat} (b : Byte) (h : k ≠ a) :
    (m.writeByte a b).readByte k = m.readByte k := by
  have h' : a ≠ k := fun e => h e.symm
  induction m with
  | nil =>
    simp only [Memory.writeByte]
    split
    · rfl
    · simp [Memory.readByte, h']
  | cons c rest ih =>
    simp only [Memory.writeByte]
    split
    · split
      · rfl
      · simp [Memory.readByte, h']
    · split
      · rename_i heq
        have hc : c.1 ≠ k := fun e => h (e.symm.trans heq.symm)
        split <;> simp [Memory.readByte, h', hc]
      · simp only [Memory.readByte, ih]

/-- Storing a word changes no byte outside it, in any memory. -/
theorem readByte_writeWord_other (m : Memory) (pa : Addr) (v : Word) {k : Nat} (h : k ∉ wordBytes pa) :
    (m.writeWord pa v).readByte k = m.readByte k := by
  simp only [wordBytes, List.mem_cons, List.not_mem_nil, or_false, not_or] at h
  obtain ⟨h0, h1, h2, h3⟩ := h
  unfold Memory.writeWord
  rw [readByte_writeByte_other _ _ h3, readByte_writeByte_other _ _ h2, readByte_writeByte_other _ _ h1,
    readByte_writeByte_other _ _ h0]

/-- The writes of a trace change no byte outside the words they write. -/
theorem readByte_replay_other (es : List Event) (m : Memory) {k : Nat}
    (h : ∀ path pa v, Event.memWrite path pa v ∈ es → k ∉ wordBytes pa) :
    (replay es m).readByte k = m.readByte k := by
  induction es generalizing m with
  | nil => rfl
  | cons e rest ih =>
    have hr : ∀ path pa v, Event.memWrite path pa v ∈ rest → k ∉ wordBytes pa :=
      fun path pa v hm => h path pa v (List.mem_cons_of_mem _ hm)
    cases e
    case memWrite path pa v =>
      exact (ih _ hr).trans (readByte_writeWord_other m pa v (h path pa v (List.mem_cons_self ..)))
    all_goals exact ih m hr

/-! ## Words and replayed writes -/

/-- Storing a word keeps the canonical form. -/
theorem writeWord_wf {m : Memory} (pa : Addr) (v : Word) (h : m.wf) : (m.writeWord pa v).wf :=
  writeByte_wf _ _ (BitVec.isLt _) (writeByte_wf _ _ (BitVec.isLt _) (writeByte_wf _ _ (BitVec.isLt _)
    (writeByte_wf _ _ (BitVec.isLt _) h)))

/-- Replaying the writes of a trace keeps the canonical form. -/
theorem replay_wf (es : List Event) {m : Memory} (h : m.wf) : (replay es m).wf := by
  induction es generalizing m with
  | nil => exact h
  | cons e rest ih =>
    cases e
    case memWrite p pa v => exact ih (writeWord_wf pa v h)
    all_goals exact ih h

/-- Reset's memory has the canonical form. -/
theorem reset_mem_wf : State.reset.bus.mem.wf := ⟨List.Pairwise.nil, fun _ h => by cases h⟩

/-! ## Mapping caches (R43) -/

@[simp] theorem cacheGet_nil (k : Nat) : cacheGet [] k = none := by cases k <;> rfl

theorem cacheGet_cacheSet (c : List (Option Addr)) (i k : Nat) (a : Addr) :
    cacheGet (cacheSet c i a) k = if k = i then some a else cacheGet c k := by
  induction c generalizing i k with
  | nil =>
    induction i generalizing k with
    | zero => cases k <;> simp [cacheSet, cacheGet]
    | succ i ih =>
      cases k with
      | zero => simp [cacheSet, cacheGet]
      | succ k => simp [cacheSet, cacheGet, ih k]
  | cons e rest ih =>
    cases i with
    | zero => cases k <;> simp [cacheSet, cacheGet]
    | succ i =>
      cases k with
      | zero => simp [cacheSet, cacheGet]
      | succ k => simp [cacheSet, cacheGet, ih i k]

end Sys2Proof.Machine
end

