-- ==== Sys2Proof/Laws/PerInstr.lean ====
section
/-! SUPPORT. Facts about every instruction as syntax, one lemma per constructor. -/

namespace Sys2Proof.Laws.EncodedLength

/-- How many words an instruction has: one for a descriptor word (R100), a header and its operands for a command
(R116 to R118). -/
def words : Instr → Nat
  | .cia _ _ _ => 1
  | .cib _ _ _ _ _ _ => 1
  | .mpd _ _ _ => 1
  | .asdSlave _ _ _ _ => 1
  | .asdBridge _ _ _ _ => 1
  | .asdSwrap _ _ _ _ => 1
  | .asdMwrap _ _ _ _ => 1
  | .addrHi _ => 1
  | .szd _ _ _ _ => 1
  | .sizeHi _ => 1
  | .endOnes => 1
  | .endRom => 1
  | .invalid _ => 1
  | .reserved011 _ => 1
  | .reserved100 _ => 1
  | .reserved101 _ => 1
  | .reserved111 _ => 1
  | .attach _ _ _ _ _ _ n _ => 8 + 2 * n.toNat
  | .detach => 1
  | .scan => 1
  | .coreCount => 1
  | .coreId _ => 2
  | .coreRev _ => 2
  | .corePrimaryAddr _ => 2
  | .corePrimarySize _ => 2
  | .coreSecondaryAddr _ => 2
  | .coreSecondarySize _ => 2
  | .coreWrapperAddr _ => 2
  | .oobRouterAddr => 1
  | .switchTo _ => 2
  | .currentFocus => 1
  | .accessRegister _ _ _ _ => 5
  | .disable _ _ => 3
  | .reset _ _ _ => 4
  | .isUp _ => 2
  | .cflags _ _ _ => 4
  | .sflags _ _ _ => 4
  | .armTimeouts => 1
  | .clearTimeout => 1

/-- A well-formed instruction encodes to that many words. -/
def Statement (i : Instr) : Prop := i.wellFormed = true → (encode i).length = words i

theorem pairWords_length (ps : List (Word × Word)) : (pairWords ps).length = 2 * ps.length := by
  induction ps with
  | nil => rfl
  | cons p rest ih => simp only [pairWords, List.length_cons, ih]; omega

theorem cia (mfg cid : BitVec 12) (ccl : BitVec 4) :
    Statement (.cia mfg cid ccl) := fun _ => rfl

theorem cib (rev : BitVec 8) (nsw nmw nsp nmp : BitVec 5) (valid : BitVec 1) :
    Statement (.cib rev nsw nmw nsp nmp valid) := fun _ => rfl

theorem mpd (rsv : BitVec 16) (mui : BitVec 8) (mp : BitVec 4) :
    Statement (.mpd rsv mui mp) := fun _ => rfl

theorem asdSlave (addr : BitVec 20) (sp : BitVec 4) (sz : BitVec 2) (ag32 : BitVec 1) :
    Statement (.asdSlave addr sp sz ag32) := fun _ => rfl

theorem asdBridge (addr : BitVec 20) (sp : BitVec 4) (sz : BitVec 2) (ag32 : BitVec 1) :
    Statement (.asdBridge addr sp sz ag32) := fun _ => rfl

theorem asdSwrap (addr : BitVec 20) (sp : BitVec 4) (sz : BitVec 2) (ag32 : BitVec 1) :
    Statement (.asdSwrap addr sp sz ag32) := fun _ => rfl

theorem asdMwrap (addr : BitVec 20) (sp : BitVec 4) (sz : BitVec 2) (ag32 : BitVec 1) :
    Statement (.asdMwrap addr sp sz ag32) := fun _ => rfl

theorem addrHi (w : Word) :
    Statement (.addrHi w) := fun _ => rfl

theorem szd (size : BitVec 20) (ignHi : BitVec 8) (sg32 : BitVec 1) (ignLo : BitVec 3) :
    Statement (.szd size ignHi sg32 ignLo) := fun _ => rfl

theorem sizeHi (w : Word) :
    Statement (.sizeHi w) := fun _ => rfl

theorem endOnes :
    Statement (.endOnes) := fun _ => rfl

theorem endRom :
    Statement (.endRom) := fun _ => rfl

theorem invalid (rest : BitVec 31) :
    Statement (.invalid rest) := fun _ => rfl

theorem reserved011 (rest : BitVec 28) :
    Statement (.reserved011 rest) := fun _ => rfl

theorem reserved100 (rest : BitVec 28) :
    Statement (.reserved100 rest) := fun _ => rfl

theorem reserved101 (rest : BitVec 28) :
    Statement (.reserved101 rest) := fun _ => rfl

theorem reserved111 (rest : BitVec 28) :
    Statement (.reserved111 rest) := fun _ => rfl

theorem attach (transport busGen windowCount chipId chipRev package fastCount : Word)
    (fast : List (Word × Word)) :
    Statement (.attach transport busGen windowCount chipId chipRev package fastCount fast) := by
  intro h
  have : fast.length = fastCount.toNat := by simpa [Instr.wellFormed] using h
  simp [encode, words, pairWords_length, this]
  omega

theorem detach :
    Statement (.detach) := fun _ => rfl

theorem scan :
    Statement (.scan) := fun _ => rfl

theorem coreCount :
    Statement (.coreCount) := fun _ => rfl

theorem coreId (index : Word) :
    Statement (.coreId index) := fun _ => rfl

theorem coreRev (index : Word) :
    Statement (.coreRev index) := fun _ => rfl

theorem corePrimaryAddr (index : Word) :
    Statement (.corePrimaryAddr index) := fun _ => rfl

theorem corePrimarySize (index : Word) :
    Statement (.corePrimarySize index) := fun _ => rfl

theorem coreSecondaryAddr (index : Word) :
    Statement (.coreSecondaryAddr index) := fun _ => rfl

theorem coreSecondarySize (index : Word) :
    Statement (.coreSecondarySize index) := fun _ => rfl

theorem coreWrapperAddr (index : Word) :
    Statement (.coreWrapperAddr index) := fun _ => rfl

theorem oobRouterAddr :
    Statement (.oobRouterAddr) := fun _ => rfl

theorem switchTo (index : Word) :
    Statement (.switchTo index) := fun _ => rfl

theorem currentFocus :
    Statement (.currentFocus) := fun _ => rfl

theorem accessRegister (index offset mask value : Word) :
    Statement (.accessRegister index offset mask value) := fun _ => rfl

theorem disable (index ioBits : Word) :
    Statement (.disable index ioBits) := fun _ => rfl

theorem reset (index ioBits resetOnlyBits : Word) :
    Statement (.reset index ioBits resetOnlyBits) := fun _ => rfl

theorem isUp (index : Word) :
    Statement (.isUp index) := fun _ => rfl

theorem cflags (index mask value : Word) :
    Statement (.cflags index mask value) := fun _ => rfl

theorem sflags (index mask value : Word) :
    Statement (.sflags index mask value) := fun _ => rfl

theorem armTimeouts :
    Statement (.armTimeouts) := fun _ => rfl

theorem clearTimeout :
    Statement (.clearTimeout) := fun _ => rfl

end Sys2Proof.Laws.EncodedLength
end

