-- ==== Sys2Proof/Tests/Slice0.lean ====
section
/-! SUPPORT. Small tests of the model, their expected values from the encoding tables of spec/30_encoding.md and
the vectors of spec/95_test_vectors.md, and a witness for the hypotheses of every statement. -/

namespace Sys2Proof.Tests

open Sys2Proof.Machine

/-! ## States the tests start from -/

/-- Row 0 of the table TWO of 95 section 3.1. -/
def row0 : CoreDescriptor where
  coreIndex := 0
  coreId := 0x800
  rawRev := 0x2B
  primaryAddr := 0x18000000
  primarySize := 0x1000
  secondaryAddr := none
  secondarySize := none
  wrapperAddr := some 0x18100000

/-- Row 1 of TWO. -/
def row1 : CoreDescriptor where
  coreIndex := 1
  coreId := 0x812
  rawRev := 0x1A
  primaryAddr := 0x18001000
  primarySize := 0x1000
  secondaryAddr := none
  secondarySize := none
  wrapperAddr := some 0x18101000

/-- A row with a secondary space and no wrapper. -/
def row2 : CoreDescriptor :=
  { row1 with coreIndex := 2, coreId := 0x820, secondaryAddr := some 0x18004000, secondarySize := some 0x1000
              wrapperAddr := none }

def flatCfg : Cfg :=
  { transport := .flat, busGen := .advanced, windowCount := 0, fastPath := [], family := 0 }

def windowedCfg (windows : Nat) (fast : List (Word × Word)) : Cfg :=
  { transport := .windowed, busGen := .advanced, windowCount := windows, fastPath := fast, family := 0 }

/-- The wrappers of TWO and the bridge of B1. -/
def testPages : List (BitVec 52) := [0x18100, 0x18101, 0x18300]

/-- The reference device with these words written to it. -/
def device (words : List (Addr × Word)) : Bus :=
  { device := .reference testPages, script := [], mem := words.foldl (fun m e => m.writeWord e.1 e.2) [] }

/-- An attached block with the table TWO and row 2, no focus, on the reference device. -/
def attached (cfg : Cfg) : State :=
  { State.reset with
    attached := true, cfg := cfg, table := [row0, row1, row2], scanStatus := .ok, bus := device [] }

/-- That block on a windowed transport with core `p` in focus. -/
def focused (windows : Nat) (fast : List (Word × Word)) (p : Word) : State :=
  (attached (windowedCfg windows fast)).switchTo p

/-- A block in a scan, about to read word `cur`, in a component of `nsp` slave ports. -/
def scanning (cur : Word) (nsp : BitVec 5) (pos : ScanPos) : State :=
  { State.reset with
    attached := true, busy := true, bus := device []
    scan := { ScanRegs.unset with cur := cur, lim := 0x380, eromBase := 0x18010000, nsp := nsp, pos := pos } }

def next? : Host.Outcome State Fault Refusal → Option State
  | .next t => some t
  | .fault _ => none
  | .refused _ => none

/-- The response and the events of the command, if it answers a next state. -/
def shown (o : Host.Outcome State Fault Refusal) : Option (List Word × List Event) :=
  (next? o).map (fun t => (t.response, t.commandTrace))

/-- The control point and the cursor after a descriptor word. -/
def at? (o : Host.Outcome State Fault Refusal) : Option (ScanPos × Word) :=
  (next? o).map (fun t => (t.scan.pos, t.scan.cur))

/-- How a scan ended. -/
def ended? (o : Host.Outcome State Fault Refusal) : Option (ScanStatus × List Word) :=
  (next? o).map (fun t => (t.scanStatus, t.response))

/-! ## WellFormed -/

/-- R118: two pairs announced, one there. -/
theorem test_illformed_attach_short : (Instr.attach 1 0 2 0 0 0 2 [(0x800, 0)]).wellFormed = false := by decide

/-- R118: no pair announced, one there. -/
theorem test_illformed_attach_long : (Instr.attach 1 0 2 0 0 0 0 [(0x800, 0)]).wellFormed = false := by decide

/-- R112: TAG 111 with bits 31:4 zero is END.rom. -/
theorem test_illformed_reserved111_rom : (Instr.reserved111 0).wellFormed = false := by decide

/-- R112: TAG 111 with bits 31:4 all ones is END. -/
theorem test_illformed_reserved111_ones : (Instr.reserved111 0xFFFFFFF).wellFormed = false := by decide

/-! ## Decode: words written out from R101 to R112 and R117, the fields separated -/

theorem test_decode_cia :
    decodeStream .tagged 0b010010111111_100000000000_0000_0001#32 = .cia 0x4BF 0x800 0 := by decide

theorem test_decode_cib :
    decodeStream .cib 0b00011010_00001_00011_00010_00101_0001#32 = .cib 0x1A 1 3 2 5 1 := by decide

theorem test_decode_cib_wrong_tag :
    decodeStream .cib 0b00101011000000000100001000000011#32 = .mpd 0x2B00 0x42 0 := by decide

theorem test_decode_mpd :
    decodeStream .tagged 0b0000000000000000_00000001_0010_0011#32 = .mpd 0 1 2 := by decide

theorem test_decode_asdSlave :
    decodeStream .tagged 0b00011000000000000010_0011_00_01_0101#32 = .asdSlave 0x18002 3 1 0 := by decide

theorem test_decode_asdBridge :
    decodeStream .tagged 0b00011000001000000000_0000_01_00_0101#32 = .asdBridge 0x18200 0 0 0 := by decide

theorem test_decode_asdSwrap :
    decodeStream .tagged 0b00011000000100000010_0001_10_00_0101#32 = .asdSwrap 0x18102 1 0 0 := by decide

/-- `AG32 = 1` is bit 3: TAG 110. -/
theorem test_decode_asdMwrap :
    decodeStream .tagged 0b00100000000000000000_0000_11_11_1101#32 = .asdMwrap 0x20000 0 3 1 := by decide

theorem test_decode_addrHi : decodeStream .addrHi 0x0000000F#32 = .addrHi 0xF := by decide

theorem test_decode_szd :
    decodeStream .szd 0b00000000000100000000_00000000_1_000#32 = .szd 0x100 0 1 0 := by decide

theorem test_decode_sizeHi : decodeStream .sizeHi 0xFFFFFFFF#32 = .sizeHi 0xFFFFFFFF := by decide

theorem test_decode_endOnes : decodeStream .tagged 0xFFFFFFFF#32 = .endOnes := by decide

theorem test_decode_endRom : decodeStream .tagged 0x0000000F#32 = .endRom := by decide

theorem test_decode_invalid :
    decodeStream .tagged 0b0000000000000000000000000001111_0#32 = .invalid 0xF := by decide

theorem test_decode_reserved011 :
    decodeStream .tagged 0b0000000000000000000000000001_011_1#32 = .reserved011 1 := by decide

theorem test_decode_reserved100 :
    decodeStream .tagged 0b0000000000000000000000000010_100_1#32 = .reserved100 2 := by decide

/-- TAG 101 is reserved; TAG 010 and 110 are ASD heads (R101). -/
theorem test_decode_reserved101 :
    decodeStream .tagged 0b0000000000000000000000000010_101_1#32 = .reserved101 2 := by decide

theorem test_decode_reserved111 :
    decodeStream .tagged 0b0000000000000000000000000001_111_1#32 = .reserved111 1 := by decide

theorem test_decode_attach :
    decodeCommand [0x01, 1, 0, 2, 0x4707, 0, 0, 1, 0x800, 0x1E000000, 0x03] =
      .command (.attach 1 0 2 0x4707 0 0 1 [(0x800, 0x1E000000)]) [0x03] := by decide

theorem test_decode_plain_commands :
    [0x02, 0x03, 0x10, 0x18, 0x21, 0x50, 0x51].map (fun h => decodeCommand [BitVec.ofNat 32 h]) =
      [.command .detach [], .command .scan [], .command .coreCount [], .command .oobRouterAddr [],
       .command .currentFocus [], .command .armTimeouts [], .command .clearTimeout []] := by decide

theorem test_decode_index_commands :
    [0x11, 0x12, 0x13, 0x14, 0x15, 0x16, 0x17, 0x20, 0x42].map
        (fun h => decodeCommand [BitVec.ofNat 32 h, 7, 9]) =
      [.command (.coreId 7) [9], .command (.coreRev 7) [9], .command (.corePrimaryAddr 7) [9],
       .command (.corePrimarySize 7) [9], .command (.coreSecondaryAddr 7) [9],
       .command (.coreSecondarySize 7) [9], .command (.coreWrapperAddr 7) [9], .command (.switchTo 7) [9],
       .command (.isUp 7) [9]] := by decide

theorem test_decode_accessRegister :
    decodeCommand [0x30, 1, 0x20, 0xF, 3] = .command (.accessRegister 1 0x20 0xF 3) [] := by decide

theorem test_decode_disable : decodeCommand [0x40, 1, 2, 3] = .command (.disable 1 2) [3] := by decide

theorem test_decode_reset : decodeCommand [0x41, 0, 4, 8] = .command (.reset 0 4 8) [] := by decide

theorem test_decode_cflags : decodeCommand [0x43, 0, 4, 1] = .command (.cflags 0 4 1) [] := by decide

theorem test_decode_sflags : decodeCommand [0x44, 0, 4, 1] = .command (.sflags 0 4 1) [] := by decide

/-- A command is read when all its words are there (R116). -/
theorem test_decode_incomplete : decodeCommand [0x41, 0, 4] = .incomplete := by decide

/-- X1, X2 of 95 section 3.7. -/
theorem test_decode_rejected :
    decodeCommand [0x04] = .unassigned 4 ∧ decodeCommand [0x110] = .reservedBits := by decide

/-! ## One step of each instruction -/

theorem test_cia_opens_component :
    (next? (exec (.cia 0x4BF 0x800 0) (scanning 1 0 .identity))).map (fun t => (t.scan.cia, t.scan.pos)) =
      some (0x4BF80001#32, .cib) := by decide

/-- R154: a CIA where a master-port descriptor must stand. -/
theorem test_cia_at_mpd :
    ended? (exec (.cia 0x4BF 0x800 0) (scanning 3 1 (.mpd 1))) =
      some (.parseError .badMpd 3, [1#32]) := by decide

/-- S13's CIB, 0x1A084401: NSW 1, NMW 1, NSP 2, NMP 0. -/
theorem test_cib_fields :
    (next? (exec (decodeStream .cib 0x1A084401#32) (scanning 2 0 .cib))).map
      (fun t => (t.scan.rev, t.scan.nsw, t.scan.nmw, t.scan.nsp, t.scan.nmp, t.scan.pos)) =
      some (0x1A, 1, 1, 2, 0, .asd .primary) := by decide

/-- S7: TAG 001 at the CIB position. -/
theorem test_cib_wrong_tag :
    ended? (exec (decodeStream .cib 0x2B004203#32) (scanning 2 0 .cib)) =
      some (.parseError .badCib 2, [1#32]) := by decide

theorem test_mpd_last : at? (exec (.mpd 0 1 0) (scanning 3 1 (.mpd 1))) = some (.asd .primary, 3#32) := by
  decide

theorem test_mpd_pushed_back :
    at? (exec (.mpd 0 1 0) (scanning 3 1 (.asd .primary))) = some (.asd .bridgeFirst, 2#32) := by decide

/-- V-B word 2: 0x18000005 is the primary, of size 0x1000. -/
theorem test_asdSlave_primary :
    (next? (exec (.asdSlave 0x18000 0 0 0) (scanning 3 1 (.asd .primary)))).map
      (fun t => (t.scan.pri.addr, t.scan.pri.size, t.scan.pos)) =
      some (0x18000000#64, 0x1000#64, .asd (.extra 0 none)) := by decide

/-- Port 1 is not port 0: pushed back (R156). -/
theorem test_asdSlave_other_port :
    at? (exec (.asdSlave 0x18000 1 0 0) (scanning 3 1 (.asd .primary))) =
      some (.asd .bridgeFirst, 2#32) := by decide

theorem test_asdBridge_sets_br :
    (next? (exec (.asdBridge 0x18200 0 0 0) (scanning 3 1 (.asd .bridgeFirst)))).map
      (fun t => (t.scan.br, t.scan.pri.addr)) = some (true, 0x18200000#64) := by decide

/-- S14: with NSP = 2 the first slave wrapper stands on port 1. -/
theorem test_asdSwrap_port :
    ended? (exec (.asdSwrap 0x18102 0 0 0) (scanning 6 2 (.asd (.slaveWrap 0)))) =
      some (.parseError (.swMissing 0) 5, [1#32]) := by decide

/-- S12: with NSP = 1 it stands on port 0. -/
theorem test_asdSwrap_records :
    (next? (exec (.asdSwrap 0x18100 0 0 0) (scanning 4 1 (.asd (.slaveWrap 0))))).map
      (fun t => t.scan.rows.map (fun d => d.wrapperAddr)) = some [some 0x18100000#64] := by decide

/-- S10: a master wrapper of size 0x2000. -/
theorem test_asdMwrap_size :
    ended? (exec (.asdMwrap 0x18100 0 1 0) (scanning 4 1 (.asd (.masterWrap 0)))) =
      some (.parseError (.mwSize 0) 4, [1#32]) := by decide

theorem test_addrHi_half :
    at? (exec (.addrHi 0x1) (scanning 4 1 (.addrHi .primary 0x20000000 3))) =
      some (.szd .primary 0x120000000#64, 4#32) := by decide

/-- S17: the SZD 0x00100000 gives a primary of size 0x100000. -/
theorem test_szd_size :
    (next? (exec (decodeStream .szd 0x00100000#32) (scanning 5 1 (.szd .primary 0x20000000)))).map
      (fun t => (t.scan.pri.addr, t.scan.pri.size)) = some (0x20000000#64, 0x100000#64) := by decide

/-- A high size half with `STRICT_ASD` is PE_HIGH (R208). -/
theorem test_sizeHi_strict :
    ended? (exec (.sizeHi 1) (scanning 6 1 (.sizeHi .primary 0x20000000 0x1000))) =
      some (.parseError .high 6, [1#32]) := by decide

theorem test_end_at_identity :
    ended? (exec .endOnes (scanning 1 0 .identity)) = some (.ok, [0#32]) := by decide

/-- S11: END where a master wrapper must stand. -/
theorem test_endRom_at_wrapper :
    ended? (exec .endRom (scanning 4 1 (.asd (.masterWrap 0)))) =
      some (.parseError (.mwMissing 0) 3, [1#32]) := by decide

/-- END.rom where ADDR_HI is read is the address half 0xF (R113). -/
theorem test_endRom_as_addrHi :
    at? (exec (decodeStream .addrHi 0x0000000F#32) (scanning 4 1 (.addrHi .bridgeFirst 0 3))) =
      some (.szd .bridgeFirst 0xF00000000#64, 4#32) := by decide

theorem test_invalid_skipped :
    at? (exec (.invalid 0) (scanning 4 1 (.asd (.masterWrap 0)))) =
      some (.asd (.masterWrap 0), 4#32) := by decide

theorem test_reserved_skipped_at_identity :
    [Instr.reserved011 1, .reserved100 1, .reserved101 1, .reserved111 1].map
        (fun i => at? (exec i (scanning 4 1 .identity))) =
      List.replicate 4 (some (.identity, 4#32)) := by decide

theorem test_reserved_is_bad_mpd :
    [Instr.reserved011 1, .reserved100 1, .reserved101 1, .reserved111 1].map
        (fun i => ended? (exec i (scanning 4 1 (.mpd 2)))) =
      List.replicate 4 (some (.parseError .badMpd 4, [1#32])) := by decide

/-- X6, X7: operands out of range leave the block detached. -/
theorem test_attach_out_of_range :
    [exec (.attach 3 0 0 0x4707 0 0 0 []) State.reset, exec (.attach 1 0 0 0x4707 0 0 0 []) State.reset].map
        (fun o => (next? o).map (fun t => (t.attached, t.response))) =
      List.replicate 2 (some (false, [2#32])) := by decide

/-- X11. -/
theorem test_attach_flat :
    (next? (exec (.attach 0 0 0 0x4707 0 0 0 []) State.reset)).map
      (fun t => (t.attached, t.cfg.transport, t.response)) = some (true, .flat, [0#32]) := by decide

/-- X10. -/
theorem test_detach_clears :
    (next? (exec .detach (attached flatCfg))).map (fun t => (t.attached, t.table, t.response)) =
      some (false, [], [0#32]) := by decide

/-- S16: an unaligned pointer ends the scan with no Map of the stream. -/
theorem test_scan_bad_pointer :
    shown (exec .scan { attached flatCfg with bus := device [(0x180000FC, 0x18010002)] }) =
      some ([1#32], [.map 0x18000000 0x1000, .memRead .plain 0x180000FC 0x18010002]) := by decide

/-- P2 step 2. -/
theorem test_scan_windowed_start :
    shown (exec .scan
      { attached (windowedCfg 2 []) with bus := device [(0x180000FC, 0x18010000)] }) =
      some ([], [.winSet .reg 0x18000000, .memRead .plain 0x180000FC 0x18010000,
        .winSet .reg 0x18010000]) := by decide

/-- CORE_COUNT's cause word after V-C is 0x107. -/
theorem test_coreCount_cause :
    shown (exec .coreCount { attached flatCfg with
      table := [], scanStatus := .parseError (.spEmpty 1) 3 }) =
      some ([0#32, 2#32, 0x107#32, 0#32], []) := by decide

theorem test_coreId : shown (exec (.coreId 1) (attached flatCfg)) = some ([0x812#32, 0#32], []) := by decide

theorem test_coreRev : shown (exec (.coreRev 0) (attached flatCfg)) = some ([0x2B#32, 0#32], []) := by decide

theorem test_corePrimaryAddr :
    shown (exec (.corePrimaryAddr 1) (attached flatCfg)) =
      some ([0x18001000#32, 0#32, 0#32], []) := by decide

theorem test_corePrimarySize :
    shown (exec (.corePrimarySize 3) (attached flatCfg)) = some ([0#32, 0#32, 2#32], []) := by decide

theorem test_coreSecondaryAddr :
    shown (exec (.coreSecondaryAddr 2) (attached flatCfg)) =
      some ([1#32, 0x18004000#32, 0#32, 0#32], []) := by decide

theorem test_coreSecondarySize :
    shown (exec (.coreSecondarySize 0) (attached flatCfg)) =
      some ([0#32, 0#32, 0#32, 0#32], []) := by decide

theorem test_coreWrapperAddr :
    shown (exec (.coreWrapperAddr 1) (attached flatCfg)) =
      some ([1#32, 0x18101000#32, 0#32, 0#32], []) := by decide

theorem test_oobRouterAddr :
    shown (exec .oobRouterAddr { attached flatCfg with oob := some 0x1800A000 }) =
      some ([1#32, 0x1800A000#32, 0#32, 0#32], []) := by decide

/-- P1 step 9. -/
theorem test_switchTo_out_of_range :
    shown (exec (.switchTo 5) (attached flatCfg)) = some ([0#32, 0#32, 2#32], []) := by decide

/-- P2 step 5. -/
theorem test_switchTo_windowed :
    shown (exec (.switchTo 1) (focused 2 [] 0)) =
      some ([1#32, 1#32, 0#32], [.winSet .reg 0x18001000, .winSet .wrap 0x18101000]) := by decide

theorem test_currentFocus :
    shown (exec .currentFocus (focused 2 [] 1)) = some ([1#32, 1#32, 0#32], []) := by decide

/-- P1 step 5, with core 0's window mapped by this access. -/
theorem test_accessRegister_rmw :
    shown (exec (.accessRegister 0 0x10 0xFF 0x12)
      { attached flatCfg with bus := device [(0x18000010, 0xF0)] }) =
      some ([0x12#32, 0#32], [.map 0x18000000 0x1000, .memRead .plain 0x18000010 0xF0,
        .memWrite .plain 0x18000010 0x12, .memRead .plain 0x18000010 0x12]) := by decide

/-- A8: one window, focus 0, core 1; the mask's saved state is free. -/
theorem test_accessRegister_slow :
    (next? (exec (.accessRegister 1 0 0 0) (focused 1 [] 0))).map
      (fun t => (t.commandTrace.map Event.regBase, t.focus.idx, t.winReg)) =
      some ([none, some 0x18001000#64, none, some 0x18000000#64, none], some 0#32, 0x18000000#64) := by decide

/-- L6 on the state of L1: `RESETCTRL` 0. -/
theorem test_disable_sequence :
    shown (exec (.disable 0 3) { attached flatCfg with mapWrap := [some 0x18100000] }) =
      some ([0#32], [.memRead .plain 0x18100800 0, .memRead .plain 0x18100804 0,
        .memWrite .plain 0x18100800 1, .memRead .plain 0x18100800 1, .delay 1,
        .memWrite .plain 0x18100408 3, .memRead .plain 0x18100408 3, .delay 10]) := by decide

/-- L1. -/
theorem test_reset_sequence :
    shown (exec (.reset 0 0 0) { attached flatCfg with mapWrap := [some 0x18100000] }) =
      some ([0#32], [.memRead .plain 0x18100804 0, .memWrite .plain 0x18100800 1, .delay 10,
        .memRead .plain 0x18100804 0, .memWrite .plain 0x18100408 3, .memRead .plain 0x18100804 0,
        .memRead .plain 0x18100804 0, .memWrite .plain 0x18100800 0, .memRead .plain 0x18100800 0,
        .memWrite .plain 0x18100408 1, .memRead .plain 0x18100408 1, .delay 1]) := by decide

/-- L9. -/
theorem test_isUp :
    shown (exec (.isUp 0) { attached flatCfg with
      mapWrap := [some 0x18100000], bus := device [(0x18100408, 1)] }) =
      some ([1#32, 0#32], [.memRead .plain 0x18100408 1, .memRead .plain 0x18100800 0]) := by decide

/-- L10. -/
theorem test_cflags :
    shown (exec (.cflags 0 4 0) { attached flatCfg with
      mapWrap := [some 0x18100000], bus := device [(0x18100408, 5)] }) =
      some ([1#32, 0#32], [.memRead .plain 0x18100408 5, .memWrite .plain 0x18100408 1,
        .memRead .plain 0x18100408 1]) := by decide

/-- L13. -/
theorem test_sflags :
    shown (exec (.sflags 0 0 0) { attached flatCfg with mapWrap := [some 0x18100000] }) =
      some ([0#32, 0#32], [.memRead .plain 0x18100500 0]) := by decide

/-- B1. -/
theorem test_armTimeouts :
    shown (exec .armTimeouts { attached flatCfg with bws := [0x18300000] }) =
      some ([0#32], [.map 0x18300000 0x1000, .memWrite .plain 0x18300900 0x330]) := by decide

/-- B3. -/
theorem test_clearTimeout :
    shown (exec .clearTimeout { attached flatCfg with
      bws := [0x18300000]
      bus := { device [] with script := [(0x18300908, 2), (0x18300908, 0)] } }) =
      some ([0#32, 0#32], [.map 0x18300000 0x1000, .memRead .plain 0x18300908 2,
        .memWrite .plain 0x18300904 3, .memRead .plain 0x18300908 0, .memWrite .plain 0x18300800 1,
        .memRead .plain 0x18300800 1, .memWrite .plain 0x18300800 0, .memRead .plain 0x18300800 0]) := by decide

/-- D35: `RESETSTATUS` reads 0 whatever is written there; the register before it keeps what is written. -/
theorem test_resetStatus_reads_zero :
    let s := { attached flatCfg with bus := device [(0x18100804, 7), (0x18100800, 6)] }
    s.busAnswer 0x18100804 = 0 ∧ s.busAnswer 0x18100800 = 6 := by decide

/-- R58: Enabled by its registers, Unknown to the block until IS_UP reads them. -/
theorem test_lifecycle :
    let s := { attached flatCfg with bus := device [(0x18100408, 1)] }
    s.lifecycle 0 = .enabled ∧ s.knownLifecycle 0 = .unknown ∧
    (next? (exec (.isUp 0) s)).map (fun t => t.knownLifecycle 0) = some .enabled := by decide

/-- A procedure that reads the last and the first word of its slot's first page. -/
def twoReads : SlotProc :=
  .read false 0 0x3FF (fun _ => .read false 0 0 (fun _ => .raise .tableFull))

/-- R80: REG is programmed once for the two reads of a page, and the reads are inside the window. -/
theorem test_slotProc_windowed :
    (twoReads.run 0x18002000 (attached (windowedCfg 1 []))).2.trace =
      [.winSet .reg 0x18002000, .memRead .plain 0x18002FFC 0, .memRead .plain 0x18002000 0] := by decide

/-- Only what the host issued whole runs: an incomplete command changes nothing (R439). -/
theorem test_step_waits :
    (next? (step { attached flatCfg with commands := [0x20#32] })).map (fun t => (t.commands, t.response)) =
      some ([0x20#32], []) := by decide

/-! ## Witnesses: states and operands that meet the hypotheses of each statement -/

/-- A block on Flat, and one on a windowed transport with two windows and core 0 in focus. -/
theorem ready_flat : (attached flatCfg).ready := ⟨rfl, rfl⟩

theorem ready_focused (p : Word) : (focused 2 [] p).ready := by
  unfold focused State.switchTo
  split
  · exact ⟨rfl, rfl⟩
  · rename_i d _
    cases h : d.wrapperAddr <;> simp [State.flat, attached, windowedCfg, State.focusWindowed, h, State.winSet,
      State.reset, State.ready]

theorem test_wit_DescriptorRoundTrip :
    (Instr.reserved111 1).wellFormed = true ∧ (Instr.reserved111 1).position = some .tagged ∧
    (Instr.cib 0 0 0 1 0 0).wellFormed = true ∧ (Instr.cib 0 0 0 1 0 0).position = some .cib := by decide

theorem test_wit_CommandRoundTrip :
    (Instr.attach 1 0 2 0 0 0 2 [(1, 2), (3, 4)]).wellFormed = true ∧
    (Instr.attach 1 0 2 0 0 0 2 [(1, 2), (3, 4)]).position = none := by decide

theorem test_wit_StepRunsCommand :
    (attached flatCfg).busy = false ∧ decodeCommand (attached flatCfg).commands = .idle ∧
    decodeCommand { attached flatCfg with commands := [0x20#32] }.commands = .incomplete ∧
    decodeCommand { attached flatCfg with commands := [0x20#32, 1#32] }.commands =
      .command (.switchTo 1) [] := by decide

/-- At the limit, and one word below it. -/
theorem test_wit_StepReadsStreamWord :
    (scanning 0x380 1 .identity).busy = true ∧
    (scanning 0x380 1 .identity).scan.lim ≤ (scanning 0x380 1 .identity).scan.cur ∧
    (scanning 0x37F 1 .identity).scan.cur < (scanning 0x37F 1 .identity).scan.lim := by decide

theorem test_wit_StepNeverFaults : (scanning 0x380 1 (.asd .primary)).busy = true := by decide

theorem test_wit_RefusedCommands :
    Instr.scan.position = none ∧ (scanning 0 1 .identity).busy = true ∧ State.reset.busy = false ∧
    State.reset.attached = false ∧ isAttach .scan = false ∧ (attached flatCfg).attached = true ∧
    isAttach (.attach 0 0 0 0 0 0 0 []) = true ∧
    (0x110#32).extractLsb' 8 24 ≠ 0#24 ∧ (0x52#32).extractLsb' 8 24 = 0#24 ∧ 0x52#32 ∉ assignedHeaders := by
  decide

/-- R190's conditions on an ATTACH record. -/
abbrev inRange (t g w n : Word) : Prop :=
  t.toNat ≤ 2 ∧ g.toNat ≤ 1 ∧ (t ≠ 0#32 → w = 1#32 ∨ w = 2#32) ∧ n.toNat ≤ 2 ∧ (t = 0#32 → n = 0#32)

/-- The largest values in range, and one value out of range for each condition. -/
theorem test_wit_AttachRule :
    State.reset.busy = false ∧ State.reset.attached = false ∧ (attached flatCfg).attached = true ∧
    ([(0x800, 0), (1, 0)] : List (Word × Word)).length = (2#32).toNat ∧ inRange 2 1 2 2 ∧ inRange 0 0 7 0 :=
  ⟨rfl, rfl, rfl, rfl, by decide, by decide⟩

theorem test_wit_AttachRule_outOfRange :
    ¬ inRange 3 0 1 0 ∧ ¬ inRange 0 2 0 0 ∧ ¬ inRange 1 0 0 0 ∧ ¬ inRange 1 0 2 3 ∧ ¬ inRange 0 0 0 1 :=
  ⟨by decide, by decide, by decide, by decide, by decide⟩

theorem test_wit_DetachRule : (attached flatCfg).ready := ready_flat

theorem test_wit_ResetAcceptsOnlyAttach :
    Instr.scan.wellFormed = true ∧ Instr.scan.position = none ∧ isAttach .scan = false ∧ (1#32).toNat ≤ 1 := by
  decide

/-- A pointer that is 4-aligned and one that is not. -/
theorem test_wit_ScanLocatesStream :
    (attached flatCfg).ready ∧ (attached flatCfg).cfg.busGen = .advanced ∧
    (0x18010000#32).extractLsb' 0 2 = 0#2 ∧ (0x18010002#32).extractLsb' 0 2 ≠ 0#2 :=
  ⟨ready_flat, by decide, by decide, by decide⟩

theorem test_wit_LegacyScanRule :
    (attached { flatCfg with busGen := .legacy }).ready ∧
    (attached { flatCfg with busGen := .legacy }).cfg.busGen = .legacy := ⟨⟨rfl, rfl⟩, rfl⟩

theorem test_wit_IdentitySearch :
    (scanning 1 1 .identity).busy = true ∧ (scanning 1 1 .identity).scan.pos = .identity ∧
    skippedAtIdentity (.mpd 0 0 0) = true ∧ (scanning 1 1 .identity).scan.pos.position = .tagged ∧
    (scanning 1 1 (.mpd 1)).scan.pos.position = .tagged ∧
    (scanning 1 1 (.asd .primary)).scan.pos.position = .tagged := by decide

theorem test_wit_CibRule :
    (scanning 1 1 .cib).busy = true ∧ (scanning 1 1 .cib).scan.pos = .cib ∧
    (Instr.mpd 0 0 0).position = some .tagged ∧ encode (.mpd 0 0 0) = [3#32] ∧
    (3#32).extractLsb' 1 3 ≠ 0#3 := by decide

theorem test_wit_MpdRule :
    (scanning 1 1 (.mpd 1)).busy = true ∧ (scanning 1 1 (.mpd 1)).scan.pos = .mpd 1 ∧
    (scanning 1 1 (.mpd 2)).scan.pos = .mpd 2 ∧ validTagged .endRom = true := by decide

theorem test_wit_UnitContinues :
    (scanning 1 1 (.asd .primary)).busy = true ∧
    asdFields (.asdSlave 1 0 3 1) = some (.slave, 1, 0, 3, 1) ∧
    asdFields (.asdSlave 1 0 3 0) = some (.slave, 1, 0, 3, 0) ∧
    ((0#4).toNat, AsdType.slave) = AsdSite.primary.wants 1 ∧
    (scanning 1 1 (.addrHi .primary 0 3)).scan.pos = .addrHi .primary 0 3#2 ∧
    (scanning 1 1 (.szd .primary 0)).scan.pos = .szd .primary 0 := ⟨rfl, rfl, rfl, rfl, rfl, rfl⟩

/-- A primary below 4 GiB, one above, one of 4 GiB, and a word pushed back. -/
theorem test_wit_PrimarySite :
    (scanning 1 1 (.asd .primary)).unitEnd (.asdSlave 0x18000 0 0 0) =
      some (.primary, 0x18000000#64, 0x1000#64) ∧
    (scanning 1 1 (.addrHi .primary 0 0)).unitEnd (.addrHi 1) = some (.primary, 0x100000000#64, 0x1000#64) ∧
    (scanning 1 1 (.sizeHi .primary 0 0)).unitEnd (.sizeHi 1) = some (.primary, 0#64, 0x100000000#64) ∧
    (scanning 1 1 (.asd .primary)).rejectedAt (.asdSlave 0x18000 1 0 0) = some .primary := by decide

theorem test_wit_BridgeSite :
    (scanning 1 1 (.asd .bridgeFirst)).unitEnd (.asdBridge 0x18200 0 0 0) =
      some (.bridgeFirst, 0x18200000#64, 0x1000#64) ∧
    (scanning 1 1 (.asd .bridgeFirst)).rejectedAt (.asdSlave 0x18200 0 0 0) = some .bridgeFirst ∧
    (scanning 1 1 (.asd .bridgeMore)).unitEnd (.asdBridge 0x18200 0 2 0) =
      some (.bridgeMore, 0x18200000#64, 0x4000#64) ∧
    (scanning 1 1 (.asd .bridgeMore)).rejectedAt .endOnes = some .bridgeMore := by decide

/-- No further ASD, one of window size, one above 4 GiB, one of another size. -/
theorem test_wit_SecondarySite :
    (scanning 1 1 (.asd (.extra 0 none))).unitEnd (.asdSlave 0x18004 0 0 0) =
      some (.extra 0 none, 0x18004000#64, 0x1000#64) ∧
    (scanning 1 1 (.asd (.extra 0 none))).rejectedAt .endRom = some (.extra 0 none) ∧
    (let one : Asd := { port := 0, type := .slave, addr := 0x18004000, size := 0x1000 }
     let high : Asd := { one with addr := 0x118004000 }
     let large : Asd := { one with size := 0x2000 }
     (some one).filter (fun a => (1 : Nat) == 1 && a.size == 0x1000#64) = some one ∧
     one.addr.extractLsb' 32 32 = 0#32 ∧ high.addr.extractLsb' 32 32 ≠ 0#32 ∧
     (some large).filter (fun a => (1 : Nat) == 1 && a.size == 0x1000#64) = none ∧
     (scanning 1 1 (.asd (.extra 1 (some one)))).rejectedAt .endRom = some (.extra 1 (some one)) ∧
     (scanning 1 1 (.asd (.extra 1 (some one)))).scan.br = false) := by decide

theorem test_wit_CaptureAndPortSites :
    (scanning 1 0 (.asd .capture)).unitEnd (.asdSlave 0x1800A 0 0 0) =
      some (.capture, 0x1800A000#64, 0x1000#64) ∧
    (scanning 1 0 (.asd .capture)).rejectedAt .endRom = some .capture ∧
    (scanning 1 2 (.asd (.slavePort 1 0))).unitEnd (.asdSlave 0x18002 1 0 0) =
      some (.slavePort 1 0, 0x18002000#64, 0x1000#64) ∧
    (scanning 1 2 (.asd (.slavePort 1 0))).rejectedAt .endRom = some (.slavePort 1 0) ∧
    (scanning 1 2 (.asd (.slavePort 1 1))).rejectedAt .endRom = some (.slavePort 1 1) := by decide

/-- A scan at a wrapper region that `BRIDGE_KINDS` recognizes, with room in the bridge set. -/
def bridgeScan (site : AsdSite) : State :=
  let s := scanning 1 1 (.asd site)
  { s with scan := { s.scan with mfg := 0x43B, cid := 0x135 } }

theorem test_wit_WrapperSites :
    (scanning 1 1 (.asd (.masterWrap 0))).rejectedAt .endRom = some (.masterWrap 0) ∧
    (scanning 1 1 (.asd (.slaveWrap 0))).rejectedAt .endRom = some (.slaveWrap 0) ∧
    (scanning 1 1 (.asd (.masterWrap 0))).unitEnd (.asdMwrap 0x18100 0 0 0) =
      some (.masterWrap 0, 0x18100000#64, 0x1000#64) ∧
    (scanning 1 1 (.asd (.masterWrap 0))).unitEnd (.asdMwrap 0x18100 0 1 0) =
      some (.masterWrap 0, 0x18100000#64, 0x2000#64) ∧
    (scanning 1 1 (.addrHi (.slaveWrap 0) 0 0)).unitEnd (.addrHi 1) =
      some (.slaveWrap 0, 0x100000000#64, 0x1000#64) ∧
    (scanning 1 1 (.asd (.slaveWrap 0))).scan.wrap = none ∧
    (scanning 1 1 (.asd (.slaveWrap 0))).params.strictAsd = true ∧
    (bridgeScan (.slaveWrap 0)).params.bridgeKinds.contains
      ((bridgeScan (.slaveWrap 0)).scan.mfg, (bridgeScan (.slaveWrap 0)).scan.cid) = true ∧
    (bridgeScan (.slaveWrap 0)).unitEnd (.asdSwrap 0x18300 0 0 0) =
      some (.slaveWrap 0, 0x18300000#64, 0x1000#64) ∧
    { bridgeScan (.slaveWrap 0) with bws := [0, 1, 2, 3] }.bws.length =
      (bridgeScan (.slaveWrap 0)).params.maxBridges := by decide

/-- A scan about to read END, with these rows staged, on this transport. -/
def endScan (cfg : Cfg) (rows : List CoreDescriptor) : State :=
  let s := scanning 9 1 .identity
  { s with cfg := cfg, scan := { s.scan with rows := rows } }

theorem test_wit_EndFinishesScan :
    (endScan flatCfg [row0]).busy = true ∧ (endScan flatCfg [row0]).scan.pos = .identity ∧
    (endScan flatCfg [row0]).mapReg = [] ∧ (endScan flatCfg [row0]).mapWrap = [] ∧
    (endScan flatCfg []).scan.rows = [] ∧ (endScan flatCfg [row0]).scan.rows = row0 :: [] ∧
    (endScan flatCfg [row0]).cfg.transport = .flat ∧
    (endScan (windowedCfg 2 []) [row0, row1]).scan.rows = row0 :: [row1] ∧
    (endScan (windowedCfg 2 []) [row0, row1]).cfg.transport ≠ .flat := by decide

/-- A step at the limit, one that reads END, one that fails; and the same of the meaning of END. -/
theorem test_wit_ParseErrorDiscardsAll :
    (∃ t, step (scanning 0x380 1 .identity) = .next t ∧ t.busy = false) ∧
    (∃ t, step { endScan flatCfg [row0] with bus := device [(0x18010024, 0xF)] } = .next t ∧
      t.busy = false ∧ t.scanStatus = .ok) ∧
    (∃ t, step { scanning 3 1 (.asd (.masterWrap 0)) with bus := device [(0x1801000C, 0xF)] } = .next t ∧
      t.busy = false ∧ t.table = []) ∧
    (∃ t, exec .endRom (endScan flatCfg [row0]) = .next t ∧ t.busy = false) ∧
    ∃ t, exec .endRom (scanning 4 1 (.asd (.masterWrap 0))) = .next t ∧ t.busy = false :=
  ⟨⟨_, rfl, rfl⟩, ⟨_, rfl, by decide, by decide⟩, ⟨_, rfl, by decide, by decide⟩, ⟨_, rfl, rfl⟩, ⟨_, rfl, rfl⟩⟩

theorem test_wit_DescriptorWordFrame :
    (Instr.invalid 0).position ≠ none ∧
    ∃ t, exec (.invalid 0) (scanning 4 1 (.asd (.masterWrap 0))) = .next t ∧ t.busy = true :=
  ⟨by decide, _, rfl, rfl⟩

/-- A step that pushes its word back, and one that takes it. -/
theorem test_wit_CursorNeverGoesBack :
    (∃ t, step { scanning 3 1 (.asd .primary) with bus := device [(0x1801000C, 3)] } = .next t ∧
      t.busy = true ∧ t.scan.cur = 3#32) ∧
    ∃ t, step (scanning 3 1 (.asd .primary)) = .next t ∧ t.busy = true ∧ t.scan.cur = 4#32 :=
  ⟨⟨_, rfl, by decide, by decide⟩, ⟨_, rfl, by decide, by decide⟩⟩

theorem test_wit_ScanEnds :
    (scanning 0x380 1 (.asd .bridgeMore)).busy = true ∧
    (scanning 0x380 1 (.asd .bridgeMore)).scan.cur ≤ (scanning 0x380 1 (.asd .bridgeMore)).scan.lim ∧
    (attached flatCfg).ready ∧ (attached flatCfg).cfg.busGen = .advanced :=
  ⟨by decide, by decide, ready_flat, by decide⟩

/-- TWO, its pointer and its stream, and SCAN on the port. -/
def twoDevice : State :=
  { attached flatCfg with
    commands := [0x03#32]
    bus := device [(0x180000FC, 0x18010000), (0x18010000, 0x4BF80001), (0x18010004, 0x2B004201),
      (0x18010008, 0x18000005), (0x1801000C, 0x181000C5), (0x18010010, 0x4BF81201),
      (0x18010014, 0x1A004201), (0x18010018, 0x18001005), (0x1801001C, 0x181010C5),
      (0x18010020, 0x0000000F)] }

/-- The encoder gives the words of TWO written out in 95 section 3.1. -/
theorem test_encodeTable_two :
    encodeTable [row0, row1] = [0x4BF80001#32, 0x2B004201#32, 0x18000005#32, 0x181000C5#32, 0x4BF81201#32,
      0x1A004201#32, 0x18001005#32, 0x181010C5#32, 0x0000000F#32] := by decide

theorem test_wit_ScanRoundTrip :
    twoDevice.ready ∧ twoDevice.cfg.busGen = .advanced ∧ twoDevice.onReference testPages ∧
    twoDevice.commands = [0x03#32] ∧ roundTripTable twoDevice.params [row0, row1] = true ∧
    (∀ cid, twoDevice.params.remappedId twoDevice.cfg.family cid = cid) ∧
    (0x18010000#32).extractLsb' 0 2 = 0#2 ∧
    twoDevice.busAnswer (Config.bootCoreBase + Config.eromPtrOffset) = 0x18010000#32 ∧
    ∀ (k : Nat) (w : Word), (encodeTable [row0, row1])[k]? = some w →
      twoDevice.busAnswer (zext64 0x18010000#32 + 4#64 * BitVec.ofNat 64 k) = w := by
  refine ⟨⟨rfl, rfl⟩, rfl, ⟨rfl, rfl⟩, rfl, by decide, fun _ => rfl, by decide, by decide, ?_⟩
  rw [test_encodeTable_two]
  have all : ∀ k : Fin 9, twoDevice.busAnswer (zext64 0x18010000#32 + 4#64 * BitVec.ofNat 64 k.val) =
      [0x4BF80001#32, 0x2B004201#32, 0x18000005#32, 0x181000C5#32, 0x4BF81201#32,
        0x1A004201#32, 0x18001005#32, 0x181010C5#32, 0x0000000F#32][k.val] := by decide
  intro k w h
  obtain ⟨hk, rfl⟩ := List.getElem?_eq_some_iff.mp h
  exact all ⟨k, hk⟩

theorem test_wit_QueriesAnswer :
    (attached flatCfg).ready ∧ (attached flatCfg).table[(2#32).toNat]? = some row2 :=
  ⟨ready_flat, by decide⟩

/-- R421: `PE_SW_SIZE(2)` is code 11 with index 2, `PE_TABLE_FULL` code 13 with none. -/
theorem test_causeWord :
    (shown (exec .coreCount { attached flatCfg with table := [], scanStatus := .parseError (.swSize 2) 9 }) =
      some ([0#32, 2#32, 0x20B#32, 0#32], [])) ∧
    (shown (exec .coreCount { attached flatCfg with table := [], scanStatus := .parseError .tableFull 9 }) =
      some ([0#32, 2#32, 13#32, 0#32], [])) := by decide

/-- The least offset and index out of range. -/
theorem test_wit_IndexOutOfRange :
    (attached flatCfg).ready ∧ 0x1000 ≤ (0x1000#32).toNat ∧ (2#32).toNat % 4 ≠ 0 ∧
    (attached flatCfg).table.length ≤ (3#32).toNat := ⟨ready_flat, by decide, by decide, by decide⟩

theorem test_wit_RangeErrorChangesNothing :
    (Instr.switchTo 3).position = none ∧ ∃ t, exec (.switchTo 3) (attached flatCfg) = .next t ∧
      t.response.getLast? = some 2#32 := ⟨rfl, _, rfl, rfl⟩

theorem test_wit_OnlyScanChangesTable :
    (Instr.isUp 0).position = none ∧ Instr.isUp 0 ≠ .scan ∧ Instr.isUp 0 ≠ .detach ∧
    isAttach (.isUp 0) = false ∧ ∃ t, exec (.isUp 0) (attached flatCfg) = .next t :=
  ⟨rfl, by decide, by decide, rfl, _, rfl⟩

theorem test_wit_FocusCommands :
    (attached flatCfg).ready ∧ (attached flatCfg).table[(1#32).toNat]? = some row1 ∧
    (attached flatCfg).cfg.transport = .flat ∧ (focused 2 [] 0).ready ∧
    (focused 2 [] 0).table[(1#32).toNat]? = some row1 ∧ (focused 2 [] 0).cfg.transport ≠ .flat :=
  ⟨ready_flat, by decide, by decide, ready_focused 0, by decide, by decide⟩

/-- Two switches with one between; a core mapped before; a cache entry and a command between. -/
theorem test_wit_FlatSwitchMapsOnce :
    ((attached flatCfg).cfg.transport = .flat ∧ ∃ t u v, exec (.switchTo 0) (attached flatCfg) = .next t ∧
      exec (.switchTo 1) t = .next u ∧ exec (.switchTo 0) u = .next v ∧
      u.table[(0#32).toNat]? = some row0 ∧ cacheGet u.mapReg 0 ≠ none ∧ cacheGet u.mapWrap 0 ≠ none) ∧
    (Instr.isUp 1).position = none ∧ Instr.isUp 1 ≠ .scan ∧ Instr.isUp 1 ≠ .detach ∧
    isAttach (.isUp 1) = false ∧
    (let s := { attached flatCfg with mapReg := [some 0x18000000], mapWrap := [some 0x18100000] }
     (∃ t, exec (.isUp 1) s = .next t) ∧ cacheGet s.mapReg 0 = some 0x18000000 ∧
       cacheGet s.mapWrap 0 = some 0x18100000) :=
  ⟨⟨rfl, _, _, _, rfl, rfl, rfl, by decide, by decide, by decide⟩, rfl, by decide, by decide, rfl, ⟨_, rfl⟩,
    by decide, by decide⟩

/-- The last register of the window. -/
theorem test_wit_AccessFlat :
    (attached flatCfg).ready ∧ (attached flatCfg).cfg.transport = .flat ∧
    (attached flatCfg).table[(1#32).toNat]? = some row1 ∧ (0xFFC#32).toNat < 0x1000 ∧
    (0xFFC#32).toNat % 4 = 0 := ⟨ready_flat, by decide, by decide, by decide, by decide⟩

/-- The index that is the first of its id in TWO and row 2. -/
theorem first_of_id : ∀ (k : Nat) (c : CoreDescriptor), k < (1#32).toNat →
    (attached flatCfg).table[k]? = some c → c.coreId ≠ row1.coreId := by
  intro k c hk hc
  have : k = 0 := by simpa using hk
  subst this
  cases hc
  decide

theorem test_wit_AccessFast :
    let s := attached (windowedCfg 2 [(0x812, 0x1E000000)])
    s.ready ∧ s.cfg.transport ≠ .flat ∧ s.table[(1#32).toNat]? = some row1 ∧
    (∃ e ∈ s.cfg.fastPath, e.1 = row1.coreId.setWidth 32) ∧
    ∀ (k : Nat) (c : CoreDescriptor), k < (1#32).toNat → s.table[k]? = some c → c.coreId ≠ row1.coreId :=
  ⟨⟨rfl, rfl⟩, by decide, by decide, ⟨_, List.mem_singleton_self _, by decide⟩, first_of_id⟩

theorem test_wit_AccessSlow :
    (focused 2 [] 0).ready ∧ (focused 2 [] 0).cfg.transport ≠ .flat ∧
    (focused 2 [] 0).table[(1#32).toNat]? = some row1 ∧ (focused 2 [] 0).focusValid ∧
    ¬ ((∃ e ∈ (focused 2 [] 0).cfg.fastPath, e.1 = row1.coreId.setWidth 32) ∧
       ∀ (k : Nat) (c : CoreDescriptor), k < (1#32).toNat → (focused 2 [] 0).table[k]? = some c →
         c.coreId ≠ row1.coreId) :=
  ⟨ready_focused 0, by decide, by decide, fun p h => by cases h; decide,
    fun h => by obtain ⟨e, he, -⟩ := h.1; cases he⟩

theorem test_wit_GetWritesNothing :
    ∃ t, exec (.accessRegister 1 0x20 0 0) (focused 2 [] 0) = .next t := ⟨_, rfl⟩

/-- From another focus, from the target's own focus, and for a fast-path core. -/
theorem test_wit_ScenarioE :
    (∃ t, exec (.accessRegister 1 0x20 0 0) (focused 2 [] 0) = .next t) ∧
    (focused 2 [] 0).focus.idx = some 0#32 ∧ (focused 2 [] 0).table[(0#32).toNat]? = some row0 ∧
    (∃ t, exec (.accessRegister 1 0x20 0 0) (focused 2 [] 1) = .next t) ∧
    (focused 2 [] 1).focus.idx = some 1#32 ∧
    (∃ t, exec (.accessRegister 1 0x20 0 0) (focused 2 [(0x812, 0)] 0) = .next t) ∧
    (∃ e ∈ (focused 2 [(0x812, 0)] 0).cfg.fastPath, e.1 = row1.coreId.setWidth 32) :=
  ⟨⟨_, rfl⟩, by decide, by decide, ⟨_, rfl⟩, by decide, ⟨_, rfl⟩, ⟨_, List.mem_singleton_self _, by decide⟩⟩

/-- From another core's focus, and the exception: from no focus, on the slow path. -/
theorem test_wit_FocusPreserved :
    (focused 2 [] 0).focusValid ∧ (∃ t, exec (.accessRegister 1 0x20 0 0) (focused 2 [] 0) = .next t ∧
      t.response.getLast? ≠ some 2#32) ∧ (focused 2 [] 0).focus.idx ≠ none ∧
    (attached (windowedCfg 2 [])).focusValid ∧
    (∃ t, exec (.accessRegister 1 0x20 0 0) (attached (windowedCfg 2 [])) = .next t ∧
      t.response.getLast? ≠ some 2#32) ∧
    (attached (windowedCfg 2 [])).focus.idx = none ∧
    (attached (windowedCfg 2 [])).cfg.transport ≠ .flat ∧ (attached (windowedCfg 2 [])).cfg.fastPath = [] :=
  ⟨fun p h => by cases h; decide, ⟨_, rfl, by decide⟩, by decide, fun p h => (by cases h), ⟨_, rfl, by decide⟩,
    by decide, by decide, by decide⟩

/-- Core 1's wrapper can be reached on Flat, and with two windows from the focus on core 0. -/
theorem reachable_flat : (attached flatCfg).WrapperReachable 1 row1 0x18101000 :=
  ⟨by decide, by decide, fun h => by cases h⟩

theorem reachable_windowed : (focused 2 [] 0).WrapperReachable 1 row1 0x18101000 :=
  ⟨by decide, by decide, fun _ => ⟨by decide, fun p h => by cases h; decide⟩⟩

theorem test_wit_DisableSequence :
    (attached flatCfg).ready ∧ (attached flatCfg).WrapperReachable 1 row1 0x18101000 ∧
    (focused 2 [] 0).ready ∧ (focused 2 [] 0).WrapperReachable 1 row1 0x18101000 :=
  ⟨ready_flat, reachable_flat, ready_focused 0, reachable_windowed⟩

theorem test_wit_ResetSequence :
    (focused 2 [] 0).ready ∧ (focused 2 [] 0).WrapperReachable 1 row1 0x18101000 :=
  ⟨ready_focused 0, reachable_windowed⟩

theorem test_wit_IsUpRule :
    (focused 2 [] 0).ready ∧ (focused 2 [] 0).WrapperReachable 1 row1 0x18101000 :=
  ⟨ready_focused 0, reachable_windowed⟩

theorem test_wit_FlagsRule :
    (attached flatCfg).ready ∧ (attached flatCfg).WrapperReachable 1 row1 0x18101000 ∧
    ((attached flatCfg).cfg.family, row1.coreId) ∉ (attached flatCfg).params.guardRefuses :=
  ⟨ready_flat, reachable_flat, by decide⟩

/-- TWO and row 2 with a guard that refuses row 1. -/
def guardedBlock : State :=
  { attached flatCfg with params := { Config.suggested with guardRefuses := [(0, 0x812)] } }

/-- A core with no wrapper; one window; a core that the guard refuses. -/
theorem test_wit_WrapperChecks :
    (attached flatCfg).ready ∧ (attached flatCfg).table[(2#32).toNat]? = some row2 ∧ row2.wrapperAddr = none ∧
    (attached (windowedCfg 1 [])).ready ∧ (attached (windowedCfg 1 [])).cfg.windowCount = 1 ∧
    (attached (windowedCfg 1 [])).cfg.transport ≠ .flat ∧
    guardedBlock.ready ∧ guardedBlock.table[(1#32).toNat]? = some row1 ∧ row1.wrapperAddr ≠ none ∧
    guardedBlock.cfg.transport = .flat ∧
    (guardedBlock.cfg.family, row1.coreId) ∈ guardedBlock.params.guardRefuses :=
  ⟨ready_flat, by decide, by decide, ⟨rfl, rfl⟩, by decide, by decide, ⟨rfl, rfl⟩, by decide, by decide,
    by decide, by decide⟩

/-- The wrappers of rows 0 and 1 are pages of the reference device. -/
theorem wrappers_listed (s : State) (h : s.table = [row0, row1, row2]) : s.wrappersIn testPages := by
  intro d hd wb hw
  rw [h] at hd
  simp only [List.mem_cons, List.not_mem_nil, or_false] at hd
  rcases hd with rfl | rfl | rfl
  · cases hw; exact ⟨0x18100, by decide, by decide⟩
  · cases hw; exact ⟨0x18101, by decide, by decide⟩
  · cases hw

/-- On Flat, and through two windows from the focus on core 0. -/
theorem test_wit_DisableIdempotent :
    ((attached flatCfg).ready ∧ (attached flatCfg).onReference testPages ∧
      (attached flatCfg).wrappersIn testPages ∧ (attached flatCfg).bus.mem.wf ∧
      (attached flatCfg).WrapperReachable 1 row1 0x18101000) ∧
    (focused 2 [] 0).ready ∧ (focused 2 [] 0).onReference testPages ∧ (focused 2 [] 0).wrappersIn testPages ∧
    (focused 2 [] 0).bus.mem.wf ∧ (focused 2 [] 0).WrapperReachable 1 row1 0x18101000 :=
  ⟨⟨ready_flat, ⟨rfl, rfl⟩, wrappers_listed _ rfl, ⟨List.Pairwise.nil, fun _ h => by cases h⟩, reachable_flat⟩,
    ready_focused 0, ⟨rfl, rfl⟩, wrappers_listed _ rfl, ⟨List.Pairwise.nil, fun _ h => by cases h⟩,
    reachable_windowed⟩

theorem test_wit_ResetBringsUp :
    ((attached flatCfg).ready ∧ (attached flatCfg).onReference testPages ∧
      (attached flatCfg).wrappersIn testPages ∧ (attached flatCfg).bus.mem.wf ∧
      (attached flatCfg).WrapperReachable 1 row1 0x18101000 ∧ 0 < (attached flatCfg).params.resetRetries ∧
      (4#32).getLsbD 1 = false) ∧
    (focused 2 [] 0).ready ∧ (focused 2 [] 0).onReference testPages ∧ (focused 2 [] 0).wrappersIn testPages ∧
    (focused 2 [] 0).bus.mem.wf ∧ (focused 2 [] 0).WrapperReachable 1 row1 0x18101000 ∧
    0 < (focused 2 [] 0).params.resetRetries :=
  ⟨⟨ready_flat, ⟨rfl, rfl⟩, wrappers_listed _ rfl, ⟨List.Pairwise.nil, fun _ h => by cases h⟩, reachable_flat,
    by decide, by decide⟩, ready_focused 0, ⟨rfl, rfl⟩, wrappers_listed _ rfl,
    ⟨List.Pairwise.nil, fun _ h => by cases h⟩, reachable_windowed, by decide⟩

/-- Row 1 with `CLOCK_EN` set: Enabled, not read yet; the same core read, in RESET, and in reset. -/
def enabledBlock : State := { attached flatCfg with bus := device [(0x18101408, 1)] }

theorem test_wit_LifecycleStates :
    enabledBlock.ready ∧ enabledBlock.resetting = none ∧ enabledBlock.table[(1#32).toNat]? = some row1 ∧
    enabledBlock.onReference testPages ∧ enabledBlock.wrappersIn testPages ∧ enabledBlock.bus.mem.wf ∧
    enabledBlock.WrapperReachable 1 row1 0x18101000 ∧ enabledBlock.lifecycle 1 = .enabled ∧
    (∀ path pa v, Event.memRead path pa v ∈ enabledBlock.trace.drop enabledBlock.attachMark →
      pa ≠ 0x18101000#64 + 0x800#64 ∧ pa ≠ 0x18101000#64 + 0x408#64) ∧
    (enabledBlock.cfg.family, row1.coreId) ∉ enabledBlock.params.guardRefuses ∧
    (1#32).getLsbD 0 = true ∧ (0#32).getLsbD 0 = false ∧ (2#32).getLsbD 1 = true ∧
    (∃ t, exec (.cflags 1 1 0) enabledBlock = .next t) ∧ (∃ t, exec (.isUp 1) enabledBlock = .next t) ∧
    (∃ t, exec (.sflags 1 1 0) enabledBlock = .next t) ∧
    WordAligned row0.primaryAddr ∧ (∃ t, exec (.accessRegister 0 0x800 1 0) enabledBlock = .next t) ∧
    row0.primaryAddr + zext64 0x800 ≠ 0x18101000#64 + 0x800#64 ∧
    row0.primaryAddr + zext64 0x800 ≠ 0x18101000#64 + 0x408#64 :=
  ⟨⟨rfl, rfl⟩, rfl, by decide, ⟨rfl, rfl⟩, wrappers_listed _ rfl, by decide,
    ⟨by decide, by decide, fun h => by cases h⟩, by decide, fun _ _ _ h => (by cases h), by decide, by decide,
    by decide, by decide, ⟨_, rfl⟩, ⟨_, rfl⟩, ⟨_, rfl⟩, by decide, ⟨_, rfl⟩, by decide, by decide⟩

/-- A core in RESET, one whose `RESETCTRL` the block has read, one in reset, and a RESET with no retry. -/
theorem test_wit_LifecycleStates_others :
    { enabledBlock with resetting := some 1 }.lifecycle 1 = .resetting ∧
    (∃ path v, Event.memRead path (0x18101000#64 + 0x800#64) v ∈
      { enabledBlock with trace := [.memRead .plain 0x18101800 0] }.trace.drop 0) ∧
    { attached flatCfg with bus := device [(0x18101800, 1)] }.lifecycle 1 = .disabled ∧
    { enabledBlock with params := { Config.suggested with resetRetries := 0 } }.params.resetRetries = 0 ∧
    (focused 2 [] 0).WrapperReachable 1 row1 0x18101000 ∧ 0 < enabledBlock.params.resetRetries :=
  ⟨by decide, ⟨.plain, 0, by decide⟩, by decide, rfl, reachable_windowed, by decide⟩

theorem test_wit_ResetReadsBounded :
    (∃ t, exec (.reset 1 0 0) (attached flatCfg) = .next t) ∧ 0 < (attached flatCfg).params.shortPolls ∧
    0 < (attached flatCfg).params.longPolls := ⟨⟨_, rfl⟩, by decide, by decide⟩

/-- A step that masks interrupts. -/
theorem test_wit_InterruptsRestored :
    (∃ t, step { focused 2 [] 0 with commands := [0x42, 1] } = .next t) ∧
    { focused 2 [] 0 with commands := [0x42, 1] }.irqSaved = none := ⟨⟨_, rfl⟩, rfl⟩

theorem test_wit_ArmTimeoutsRule :
    (attached flatCfg).ready ∧ (attached flatCfg).cfg.transport = .flat ∧ (focused 2 [] 0).ready ∧
    (focused 2 [] 0).cfg.transport ≠ .flat := ⟨ready_flat, by decide, ready_focused 0, by decide⟩

theorem test_wit_ClearTimeoutSequence :
    { attached flatCfg with bws := [0x18300000] }.ready ∧
    { attached flatCfg with bws := [0x18300000] }.cfg.transport = .flat ∧ (focused 2 [] 0).ready ∧
    (focused 2 [] 0).cfg.transport ≠ .flat := ⟨⟨rfl, rfl⟩, by decide, ready_focused 0, by decide⟩

/-- The script gives the timeout, and the reference device the acknowledgement. -/
theorem test_wit_ScenarioD :
    let s := { attached flatCfg with
      bws := [0x18300000]
      bus := { device [] with script := [(0x18300908, 2)] } }
    s.ready ∧ s.cfg.transport = .flat ∧ s.bws = [0x18300000] ∧ 0 < s.params.ackPolls ∧
    ({ s with trace := s.trace ++ [Event.map 0x18300000 0x1000] }.busAnswer (0x18300000#64 + 0x908#64)).extractLsb' 0 2
      = 2#2 ∧
    ({ s with
      trace := s.trace ++ [Event.map 0x18300000 0x1000, Event.memRead .plain 0x18300908 2,
        Event.memWrite .plain 0x18300904 3]
      bus := { s.bus with script := s.bus.script.eraseP (fun e => e.1 == 0x18300000#64 + 0x908#64)
                          mem := s.bus.mem.writeWord 0x18300904 3 } }.busAnswer
        (0x18300000#64 + 0x908#64)).extractLsb' 0 2 = 0#2 :=
  ⟨⟨rfl, rfl⟩, by decide, by decide, by decide, by decide, by decide⟩

/-- The word that wraps at the top of the address space, and a byte outside it. -/
theorem test_wit_MemoryReadAfterWrite :
    Memory.wf [(0, 1#8)] ∧ 2 ∉ wordBytes 0xFFFFFFFFFFFFFFFE#64 := by decide

theorem test_wit_TraceAccountsForBus :
    ∃ t, step { attached flatCfg with commands := [0x41, 1, 0, 0] } = .next t := ⟨_, rfl⟩

/-- A read of a register that keeps what is written, and one of a `RESETSTATUS`. -/
theorem test_wit_ReadsAreAnswered :
    (∃ t, step { attached flatCfg with commands := [0x42, 1] } = .next t ∧
      t.trace = [] ++ ([.map 0x18101000 0x1000] ++ .memRead .plain 0x18101408 0 :: [])) ∧
    (∀ p ∈ testPages, 0x18101408#64 ≠ pageBase p + 0x804#64 ∧ 0x18101408#64 ≠ pageBase p + 0x908#64) ∧
    (∃ t, step { attached flatCfg with commands := [0x41, 0, 0, 0] } = .next t ∧
      t.trace.head? = some (.map 0x18100000 0x1000) ∧
      t.trace[1]? = some (.memRead .plain 0x18100804 0)) ∧
    (∃ p ∈ testPages, 0x18100804#64 = pageBase p + 0x804#64) ∧
    { attached flatCfg with commands := [0x42, 1] }.onReference testPages ∧ State.reset.onOracle ∧
    Answered State.reset.trace :=
  ⟨⟨_, rfl, by decide⟩, by
    intro p h
    simp only [testPages, List.mem_cons, List.not_mem_nil, or_false] at h
    rcases h with rfl | rfl | rfl <;> exact ⟨by decide, by decide⟩,
    ⟨_, rfl, by decide, by decide⟩, ⟨0x18100, by decide, by decide⟩,
    ⟨rfl, rfl⟩, ⟨rfl, rfl⟩, fun b a p pa v h => by
    have := congrArg List.length h
    simp [State.reset] at this⟩

/-- A block with a table, a focus, caches and an IS_UP on its port. -/
def soundBlock : State :=
  { ({ attached flatCfg with table := [row0] }.switchTo 0) with commands := [0x42, 0] }

theorem test_wit_StepKeepsInvariant : soundBlock.Inv ∧ ∃ t, step soundBlock = .next t := by
  refine ⟨⟨?_, ?_, ?_, fun h => (by cases h), ?_, rfl, rfl, ⟨List.Pairwise.nil, fun _ h => by cases h⟩,
    by decide, by decide⟩, _, rfl⟩
  · exact ⟨fun _ => ⟨rfl, rfl⟩, fun h => absurd rfl h, by decide⟩
  · refine ⟨by decide, by decide, ?_, ?_, ?_, ?_, ?_, by decide, ?_, ?_, ?_⟩
    · intro k d h
      cases k with
      | zero => cases h; decide
      | succ k => cases h
    · intro k d h
      cases h
    · intro d h
      rcases List.mem_singleton.mp h with rfl
      exact .inl ⟨rfl, rfl⟩
    · intro d h
      cases h
    · intro a h
      cases h
    · intro c n h
      cases h
    · intro h
      cases h
    · intro h
      cases h
  · refine ⟨?_, ?_, ?_, ?_, ?_, ?_⟩
    · intro p h
      cases h
      exact ⟨row0, rfl⟩
    · intro h
      cases h
    · intro _ p d h hd
      cases h
      cases hd
      exact ⟨rfl, rfl⟩
    · intro h
      cases h
    · intro k a h
      cases k with
      | zero => cases h; exact ⟨row0, rfl, rfl⟩
      | succ k => cases h
    · intro k a h
      cases k with
      | zero => cases h; exact ⟨row0, rfl, rfl⟩
      | succ k => cases h
  · refine ⟨?_, fun _ h => (by cases h), fun _ h => (by cases h), by decide, by decide, fun _ h => (by cases h),
      trivial⟩
    intro d h
    rcases List.mem_singleton.mp h with rfl
    exact ⟨by decide, fun wb h => by cases h; decide⟩

/-- An IS_UP on Flat, whose read follows a Map, and a slow access through REG, whose first access follows the mask
and two WinSets. -/
theorem test_wit_AccessesAligned :
    soundBlock.Inv ∧
    (∃ t, step soundBlock = .next t ∧
      t.trace = soundBlock.trace ++ [] ++ .memRead .plain 0x18100408 0 :: []) ∧
    AccessOk false 0 0 [.winSet .reg 0x18001000] .plain 0x18001FFC ∧
    ¬ AccessOk false 0 0 [.winSet .reg 0x18001000] .plain 0x18002000 :=
  ⟨test_wit_StepKeepsInvariant.1, ⟨_, rfl, by decide⟩,
    ⟨by decide, fun h => (by cases h), fun _ _ => ⟨0xFFC, by decide, by decide, .inl (by decide)⟩⟩, by
    rintro ⟨-, -, h⟩
    obtain ⟨off, hlt, -, h | h⟩ := h rfl rfl
    · simp only [lastBase, Event.regBase, Option.getD_some, Config.windowSize] at h hlt
      bv_omega
    · simp only [lastBase, Event.wrapBase, Option.getD_none, Config.windowSize] at h hlt
      bv_omega⟩

end Sys2Proof.Tests
end

/-! PROOFS. The trace accounts for memory and windows, in every step (00_scope.md R11, 10_state.md R51, R59).
`OnBus` is carried through the step: `Accounted s u` says that some events lead from the state `s` the step began in
to the state `u` it has reached, and each operation of the model keeps it. -/

namespace Sys2Proof.Machine

/-- From `s` to `u` some events are emitted, and they account for the bus and the windows. -/
def Accounted (s u : State) : Prop := ∃ es, OnBus s u es

namespace Accounted

variable {s u v : State}

theorem refl (s : State) : Accounted s s := ⟨[], OnBus.refl s⟩

theorem trans (h : Accounted s u) (k : Accounted u v) : Accounted s v := by
  obtain ⟨_, h⟩ := h
  obtain ⟨_, k⟩ := k
  exact ⟨_, h.trans k⟩

/-- An update of the block's own registers is not seen outside it. -/
theorem quiet (h : Accounted s u) (htrace : v.trace = u.trace := by rfl) (hbus : v.bus = u.bus := by rfl)
    (hreg : v.winReg = u.winReg := by rfl) (hwrap : v.winWrap = u.winWrap := by rfl)
    (hparams : v.params = u.params := by rfl) : Accounted s v :=
  h.trans ⟨_, OnBus.of_eq htrace hbus hreg hwrap hparams⟩

theorem acts {es : List Event} {lg : List LogEntry} (h : Accounted s u) (k : Acts u v es lg) : Accounted s v :=
  h.trans ⟨es, k.toOnBus⟩

theorem body {es : List Event} {lg : List LogEntry} (h : Accounted s u) (k : Body u v es lg) : Accounted s v :=
  h.acts k.toActs

/-! ## The primitives and the shared operations -/

theorem logEntry (h : Accounted s u) (e : LogEntry) : Accounted s (u.logEntry e) := h.body (body_logEntry e u)

theorem map (h : Accounted s u) (pa size : Addr) : Accounted s (u.map pa size) := h.body (body_map pa size u)

theorem delay (h : Accounted s u) (n : Nat) : Accounted s (u.delay n) := h.body (body_delay n u)

theorem memRead (h : Accounted s u) (path : AccessPath) (pa : Addr) : Accounted s (u.memRead path pa).2 :=
  h.body (body_memRead path pa u)

theorem memWrite (h : Accounted s u) (path : AccessPath) (pa : Addr) (w : Word) :
    Accounted s (u.memWrite path pa w) := h.body (body_memWrite path pa w u)

theorem winSet (h : Accounted s u) (w : Window) (base : Addr) : Accounted s (u.winSet w base) :=
  h.acts (acts_winSet w base u)

theorem irqMask (h : Accounted s u) : Accounted s u.irqMask.2 := h.acts (acts_irqMask u)

theorem irqRestore (h : Accounted s u) (saved : Nat) : Accounted s (u.irqRestore saved) :=
  h.acts (acts_irqRestore saved u)

theorem rmw (h : Accounted s u) (path : AccessPath) (pa : Addr) (mask value : Word) :
    Accounted s (u.rmw path pa mask value).2 := by
  obtain ⟨_, hb, -⟩ := rmw_body path pa mask value u
  exact h.body hb

theorem mapCore (h : Accounted s u) (i : Word) (base : Addr) : Accounted s (u.mapCore i base) :=
  h.acts (mapCore_acts i base u).1

theorem mapWrapper (h : Accounted s u) (i : Word) (wb : Addr) : Accounted s (u.mapWrapper i wb) :=
  h.acts (mapWrapper_acts i wb u).1

theorem switchTo (h : Accounted s u) (i : Word) : Accounted s (u.switchTo i) := by
  obtain ⟨_, ha, -⟩ := switchTo_acts i u
  exact h.acts ha

/-- The critical section, of any body that is itself accounted for (R290). -/
theorem withFocus {α : Type} {body : State → α × State} (h : Accounted s u)
    (hbody : ∀ v, Accounted s v → Accounted s (body v).2) (i : Word) : Accounted s (u.withFocus i body).2 := by
  have hin := hbody _ (h.irqMask.switchTo i)
  unfold State.withFocus
  dsimp only
  split
  · split
    · exact hin.irqRestore _
    · exact (hin.switchTo _).irqRestore _
  · exact hin.irqRestore _

/-- The three paths of ACCESS_REGISTER (R311 to R314). -/
theorem access (h : Accounted s u) (i : Word) (d : CoreDescriptor) (off mask value : Word) :
    Accounted s (u.access i d off mask value).2 := by
  unfold State.access
  split
  · exact (h.mapCore i d.primaryAddr).rmw _ _ _ _
  · split
    · exact h.rmw _ _ _ _
    · exact h.withFocus (fun _ hv => hv.rmw _ _ _ _) i

/-! ## The lifecycle bodies, wherever the wrapper's registers are reached -/

theorem wrapRead (h : Accounted s u) (wb x : Addr) : Accounted s (u.wrapRead wb x).2 := h.memRead _ _

theorem wrapWrite (h : Accounted s u) (wb x : Addr) (w : Word) : Accounted s (u.wrapWrite wb x w) :=
  h.memWrite _ _ _

theorem shortWait (h : Accounted s u) (wb : Addr) : Accounted s (u.shortWait wb) := by
  obtain ⟨_, _, hb, -⟩ := shortWait_body wb u
  exact h.body hb

theorem twoTierWait (h : Accounted s u) (wb : Addr) : Accounted s (u.twoTierWait wb) := by
  obtain ⟨_, _, hb, -⟩ := twoTierWait_body wb u
  exact h.body hb

theorem disableBody (h : Accounted s u) (ioBits : Word) (wb : Addr) :
    Accounted s (disableBody ioBits wb u).2 := by
  have hread := h.wrapRead wb Config.resetCtrl
  unfold Machine.disableBody
  dsimp only
  split
  · exact hread
  · have hasserted := ((hread.twoTierWait wb).wrapWrite wb Config.resetCtrl 1#32).wrapRead wb Config.resetCtrl
    exact (((hasserted.delay _).wrapWrite wb Config.ioCtrl ioBits).wrapRead wb Config.ioCtrl).delay _

theorem clearReset (h : Accounted s u) (wb : Addr) (n : Nat) : Accounted s (u.clearReset wb n).2 := by
  induction n generalizing u with
  | zero => exact h
  | succ n ih =>
    have htry := ((h.shortWait wb).wrapWrite wb Config.resetCtrl 0#32).wrapRead wb Config.resetCtrl
    unfold State.clearReset
    dsimp only
    split
    · exact htry
    · exact ih htry

theorem resetBody (h : Accounted s u) (ioBits resetOnlyBits : Word) (wb : Addr) :
    Accounted s (resetBody ioBits resetOnlyBits wb u).2 := by
  have hasserted := (((h.twoTierWait wb).wrapWrite wb Config.resetCtrl 1#32).delay
    ((u.twoTierWait wb).wrapWrite wb Config.resetCtrl 1#32).params.dlyRstAssert).shortWait wb
  have hclocked := (hasserted.wrapWrite wb Config.ioCtrl
    (ioBits ||| resetOnlyBits ||| Config.forceClock ||| Config.clockEn)).shortWait wb
  have hcleared := fun n => hclocked.clearReset wb n
  unfold Machine.resetBody
  dsimp only
  refine ((wrapWrite ?_ wb _ _).wrapRead wb _).delay _
  split
  · exact hcleared _
  · exact (hcleared _).logEntry _

theorem isUpBody (h : Accounted s u) (wb : Addr) : Accounted s (isUpBody wb u).2 := by
  have hread := h.wrapRead wb Config.ioCtrl
  unfold Machine.isUpBody
  dsimp only
  split
  · exact hread.wrapRead _ _
  · exact hread

theorem withWrapper {α : Type} {body : State → α × State} (h : Accounted s u)
    (hbody : ∀ v, Accounted s v → Accounted s (body v).2) (i : Word) (wb : Addr) :
    Accounted s (u.withWrapper i wb body).2 := by
  unfold State.withWrapper
  split
  · exact hbody _ (h.mapWrapper i wb)
  · exact h.withFocus hbody i

theorem whileResetting {α : Type} {body : State → α × State} (h : Accounted s u)
    (hbody : ∀ v, Accounted s v → Accounted s (body v).2) (i : Word) :
    Accounted s (u.whileResetting i body).2 :=
  (hbody { u with resetting := some i } h.quiet).quiet

/-! ## The timeout monitor -/

theorem armBridges (h : Accounted s u) (bs : List Addr) : Accounted s (u.armBridges bs) :=
  h.body (armBridges_body bs u)

theorem clearBridges (h : Accounted s u) (bs : List Addr) : Accounted s (u.clearBridges bs).2 := by
  obtain ⟨_, _, hb, -⟩ := clearBridges_body bs u
  exact h.body hb

/-! ## The control flow of SCAN between two stream reads -/

theorem goTo (h : Accounted s u) (p : ScanPos) : Accounted s (u.goTo p) := h.quiet

theorem parseFail (h : Accounted s u) (c : ParseCause) : Accounted s (u.parseFail c) := h.quiet

/-- The epilogue is the focus switch to core 0 (R222). -/
theorem scanDone (h : Accounted s u) : Accounted s u.scanDone := switchTo h.quiet 0#32

theorem strictHigh {next : State → State} (h : Accounted s u)
    (hnext : ∀ v, Accounted s v → Accounted s (next v)) (ah sh : Word) :
    Accounted s (u.strictHigh ah sh next) := by
  unfold State.strictHigh
  split
  · exact hnext u h
  · split
    · exact h.parseFail _
    · exact hnext _ (h.logEntry _)

theorem wrapSize {next : State → State} (h : Accounted s u)
    (hnext : ∀ v, Accounted s v → Accounted s (next v)) (a : Asd) (c : ParseCause) :
    Accounted s (u.wrapSize a c next) := by
  unfold State.wrapSize
  split
  · exact hnext u h
  · split
    · exact h.parseFail _
    · exact hnext _ (h.logEntry _)

theorem commit (h : Accounted s u) : Accounted s u.commit := by
  unfold State.commit State.commitRow
  split
  · exact h.goTo _
  · split
    · exact h.parseFail _
    · exact h.quiet

theorem slaveWraps (h : Accounted s u) (i : Nat) : Accounted s (u.slaveWraps i) := by
  unfold State.slaveWraps
  split
  · exact h.goTo _
  · exact h.commit

theorem masterWraps (h : Accounted s u) (i : Nat) : Accounted s (u.masterWraps i) := by
  unfold State.masterWraps
  split
  · exact h.goTo _
  · exact h.slaveWraps 0

theorem slavePorts (h : Accounted s u) (i : Nat) : Accounted s (u.slavePorts i) := by
  unfold State.slavePorts
  split
  · exact h.goTo _
  · exact masterWraps h.quiet 0

theorem recordWrap {next : State → State} (h : Accounted s u)
    (hnext : ∀ v, Accounted s v → Accounted s (next v)) (a : Asd) : Accounted s (u.recordWrap a next) := by
  unfold State.recordWrap
  dsimp only
  split
  · exact hnext u h
  · split
    · exact hnext _ h.quiet
    · exact strictHigh h.quiet hnext _ _

theorem captureBridge {next : State → State} (h : Accounted s u)
    (hnext : ∀ v, Accounted s v → Accounted s (next v)) (a : Asd) : Accounted s (u.captureBridge a next) := by
  unfold State.captureBridge
  split
  · split
    · exact h.parseFail _
    · exact hnext _ h.quiet
  · exact hnext u h

theorem endExtras (h : Accounted s u) (extras : Nat) (first : Option Asd) :
    Accounted s (u.endExtras extras first) := by
  unfold State.endExtras
  dsimp only
  split
  · split
    · exact slavePorts h.quiet 1
    · exact strictHigh h.quiet (fun _ hv => hv.slavePorts 1) _ _
  · exact slavePorts h.quiet 1

theorem asdFound (h : Accounted s u) (site : AsdSite) (a : Asd) : Accounted s (u.asdFound site a) := by
  cases site with
  | capture => exact h.quiet
  | primary => exact strictHigh h.quiet (fun _ hv => hv.goTo _) _ _
  | bridgeFirst => exact h.quiet
  | bridgeMore => exact h.goTo _
  | extra n first => exact h.goTo _
  | slavePort i j => exact h.goTo _
  | masterWrap i => exact h.wrapSize (fun _ hv => hv.recordWrap (fun _ hw => hw.masterWraps (i + 1)) a) a _
  | slaveWrap i =>
    exact h.wrapSize
      (fun _ hv => hv.recordWrap (fun _ hw => hw.captureBridge (fun _ hx => hx.slaveWraps (i + 1)) a) a) a _

theorem asdMissing (h : Accounted s u) (site : AsdSite) : Accounted s (u.asdMissing site) := by
  cases site with
  | capture => exact h.goTo _
  | primary => exact h.goTo _
  | bridgeFirst => exact h.parseFail _
  | bridgeMore => exact h.goTo _
  | extra n first => exact h.endExtras n first
  | slavePort i j =>
    simp only [State.asdMissing]
    split
    · exact h.parseFail _
    · exact h.slavePorts (i + 1)
  | masterWrap i => exact h.parseFail _
  | slaveWrap i => exact h.parseFail _

theorem unitDone (h : Accounted s u) (site : AsdSite) (addr size : Addr) :
    Accounted s (u.unitDone site addr size) := h.asdFound site _

theorem unitAddr (h : Accounted s u) (site : AsdSite) (addr : Addr) (sz : BitVec 2) :
    Accounted s (u.unitAddr site addr sz) := by
  unfold State.unitAddr
  split
  · exact h.goTo _
  · exact h.unitDone site addr _

theorem reject (h : Accounted s u) (site : AsdSite) : Accounted s (u.reject site) :=
  asdMissing h.quiet site

theorem asdHead (h : Accounted s u) (st : AsdType) (addr : BitVec 20) (sp : BitVec 4) (sz : BitVec 2)
    (ag32 : BitVec 1) (site : AsdSite) : Accounted s (u.asdHead st addr sp sz ag32 site) := by
  unfold State.asdHead
  split
  · split
    · exact h.goTo _
    · exact h.unitAddr site _ sz
  · exact h.reject site

theorem takeSzd (h : Accounted s u) (site : AsdSite) (addr : Addr) (w : Word) :
    Accounted s (u.takeSzd site addr w) := by
  unfold State.takeSzd
  split
  · exact h.goTo _
  · exact h.unitDone site addr _

theorem classify (h : Accounted s u) : Accounted s u.classify := by
  unfold State.classify
  split
  · exact h.goTo _
  · split
    · split <;> exact h.goTo _
    · split
      · exact h.quiet
      · exact h.goTo _

theorem takeCib (h : Accounted s u) (w : Word) : Accounted s (u.takeCib w) := by
  unfold State.takeCib
  split
  · exact classify h.quiet
  · exact h.parseFail _

theorem takeMpd (h : Accounted s u) (left : Nat) : Accounted s (u.takeMpd left) := by
  unfold State.takeMpd
  split
  · exact h.quiet
  · exact h.goTo _

/-! ## The start of a SCAN -/

theorem openStream (h : Accounted s u) (p : Word) : Accounted s (u.openStream p) := h.quiet

theorem locateStream (h : Accounted s u) : Accounted s u.locateStream := by
  unfold State.locateStream
  dsimp only
  split
  · have hread := (h.map Config.bootCoreBase Config.coreWindowSize).memRead .plain
      (Config.bootCoreBase + Config.eromPtrOffset)
    split
    · exact (hread.map _ _).openStream _
    · exact hread.parseFail _
  · have hread := (h.winSet .reg Config.bootCoreBase).memRead .plain
      ((u.winSet .reg Config.bootCoreBase).winReg + Config.eromPtrOffset)
    split
    · exact (hread.winSet _ _).openStream _
    · exact hread.parseFail _

theorem selectPage (h : Accounted s u) (base : Addr) (again : Bool) : Accounted s (u.selectPage base again) :=
  h.acts (selectPage_probe base again u).toActs

/-- The walk of the main bus, which starts with no row (R233). -/
theorem mainWalk (h : Accounted s u) (hrows : u.scan.rows = []) (n : Nat) :
    Accounted s (walkSlots walkSubBus n Config.legacyBase u).2 := by
  obtain ⟨_, e, ⟨hprobe, -⟩, -⟩ := mainWalk_spec n u hrows
  have hstaged : Accounted s (u.withRows e.rows) := h.quiet
  exact hstaged.acts hprobe.toActs

theorem legacyScan (h : Accounted s u) (hrows : u.scan.rows = []) : Accounted s u.legacyScan := by
  have hscan : (u.selectPage Config.legacyBase true).scan = u.scan := (selectPage_probe _ _ u).scan
  have hwalk := fun pa => ((h.selectPage Config.legacyBase true).memRead .plain pa).mainWalk
    (by rw [memRead_scan, hscan, hrows])
  unfold State.legacyScan
  dsimp only
  split
  · exact (hwalk _ _).scanDone
  · exact (hwalk _ _).parseFail _

theorem scanStart (h : Accounted s u) : Accounted s u.scanStart := by
  have hprologue : Accounted s u.scanPrologue := h.quiet
  unfold State.scanStart
  split
  · exact hprologue.locateStream
  · exact hprologue.legacyScan rfl

end Accounted

/-! ## One instruction -/

section Instructions

variable {s t : State}

/-- A word at the position the reader stands at, each reading of it being accounted for. -/
theorem accounted_taggedWord {w : Word} {onIdentity : State → State} {onMpd : Nat → State → State}
    {onAsd : AsdSite → State → State} (h : taggedWord w onIdentity onMpd onAsd s = .next t)
    (hidentity : Accounted s (onIdentity s)) (hmpd : ∀ left, Accounted s (onMpd left s))
    (hasd : ∀ site, Accounted s (onAsd site s)) : Accounted s t := by
  have hs := Accounted.refl s
  unfold taggedWord at h
  split at h
  · cases h
    split
    · exact hidentity
    · exact hs.takeCib w
    · exact hmpd _
    · exact hasd _
    · exact hs.unitAddr _ _ _
    · exact hs.takeSzd _ _ w
    · exact hs.unitDone _ _ _
  · cases h

theorem accounted_positionalWord {w : Word} (h : positionalWord w s = .next t) : Accounted s t := by
  have hs := Accounted.refl s
  unfold positionalWord at h
  split at h
  · split at h
    case h_4 => cases h; exact hs.takeCib w
    case h_5 => cases h; exact hs.unitAddr _ _ _
    case h_6 => cases h; exact hs.takeSzd _ _ w
    case h_7 => cases h; exact hs.unitDone _ _ _
    all_goals cases h
  · cases h

/-- A valid word that is no component and no master-port descriptor, whatever it is at the identity search. -/
theorem accounted_plainWord {w : Word} {onIdentity : State → State}
    (h : taggedWord w onIdentity State.notMpd State.reject s = .next t)
    (hidentity : Accounted s (onIdentity s)) : Accounted s t :=
  accounted_taggedWord h hidentity (fun _ => (Accounted.refl s).parseFail _) (Accounted.refl s).reject

theorem accounted_asdWord {w : Word} {st : AsdType} {addr : BitVec 20} {sp : BitVec 4} {sz : BitVec 2}
    {ag32 : BitVec 1}
    (h : taggedWord w State.skip State.notMpd (State.asdHead st addr sp sz ag32) s = .next t) : Accounted s t :=
  accounted_taggedWord h (Accounted.refl s) (fun _ => (Accounted.refl s).parseFail _)
    ((Accounted.refl s).asdHead st addr sp sz ag32)

/-- A command whose body is accounted for from its beginning. -/
theorem accounted_command {body : State → List Word × State} (h : command body s = .next t)
    (hbody : ∀ u, Accounted s u → Accounted s (body u).2) : Accounted s t := by
  obtain ⟨-, rfl⟩ := command_next h
  exact (hbody s.begin (Accounted.refl s).quiet).quiet

/-- A query: its body leaves the state as it is. -/
theorem accounted_query {answer : State → List Word} (h : command (fun u => (answer u, u)) s = .next t) :
    Accounted s t := accounted_command h (fun _ hu => hu)

theorem accounted_lifecycleCommand {i : Word} {run : Addr → State → Unit × State}
    (h : lifecycleCommand i run s = .next t)
    (hrun : ∀ wb u, Accounted s u → Accounted s (run wb u).2) : Accounted s t := by
  refine accounted_command h (fun u hu => ?_)
  split
  · exact hu
  · exact hrun _ u hu

theorem accounted_flagsCommand {x : Addr} {i mask value : Word} (h : flagsCommand x i mask value s = .next t) :
    Accounted s t := by
  refine accounted_command h (fun u hu => ?_)
  split
  · exact hu
  · split
    · exact hu.logEntry _
    · exact hu.withWrapper (fun _ hv => hv.rmw _ _ _ _) i _

theorem accounted_switchTo {i : Word} (h : execSwitchTo i s = .next t) : Accounted s t := by
  refine accounted_command h (fun u hu => ?_)
  split
  · exact hu.switchTo i
  · exact hu

theorem accounted_accessRegister {i off mask value : Word} (h : execAccessRegister i off mask value s = .next t) :
    Accounted s t := by
  refine accounted_command h (fun u hu => ?_)
  split
  · split
    · exact hu.access i _ off mask value
    · exact hu
  · exact hu

theorem accounted_isUp {i : Word} (h : execIsUp i s = .next t) : Accounted s t := by
  refine accounted_command h (fun u hu => ?_)
  split
  · exact hu
  · exact hu.withWrapper (fun _ hv => hv.isUpBody _) i _

theorem accounted_armTimeouts (h : execArmTimeouts s = .next t) : Accounted s t := by
  refine accounted_command h (fun u hu => ?_)
  split
  · exact hu.armBridges u.bws
  · exact hu

theorem accounted_clearTimeout (h : execClearTimeout s = .next t) : Accounted s t := by
  refine accounted_command h (fun u hu => ?_)
  split
  · exact hu.clearBridges u.bws
  · exact hu

theorem accounted_attach {transport busGen windowCount chipId chipRev package fastCount : Word}
    {fast : List (Word × Word)}
    (h : execAttach transport busGen windowCount chipId chipRev package fastCount fast s = .next t) :
    Accounted s t := by
  unfold execAttach at h
  split at h
  · cases h
  · split at h
    · cases h
    · cases h
      split <;> exact (Accounted.refl s).quiet

theorem accounted_scan (h : execScan s = .next t) : Accounted s t := by
  have hbegin : Accounted s s.begin := (Accounted.refl s).quiet
  unfold execScan at h
  split at h
  · cases h
  · split at h
    · cases h
      exact hbegin.scanStart
    · cases h

/-- Every instruction's events account for what it does outside the block. -/
theorem exec_accounted {i : Instr} (h : exec i s = .next t) : Accounted s t := by
  have hs := Accounted.refl s
  cases i with
  | cia mfg cid ccl => unfold exec execCia at h; exact accounted_plainWord h hs.quiet
  | cib rev nsw nmw nsp nmp valid => exact accounted_positionalWord h
  | mpd rsv mui mp => exact accounted_taggedWord h hs hs.takeMpd hs.reject
  | asdSlave addr sp sz ag32 => exact accounted_asdWord h
  | asdBridge addr sp sz ag32 => exact accounted_asdWord h
  | asdSwrap addr sp sz ag32 => exact accounted_asdWord h
  | asdMwrap addr sp sz ag32 => exact accounted_asdWord h
  | addrHi w => exact accounted_positionalWord h
  | szd size ignHi sg32 ignLo => exact accounted_positionalWord h
  | sizeHi w => exact accounted_positionalWord h
  | endOnes => exact accounted_plainWord h hs.scanDone
  | endRom => exact accounted_plainWord h hs.scanDone
  | invalid rest => exact accounted_taggedWord h hs (fun _ => hs) (fun _ => hs)
  | reserved011 rest => exact accounted_plainWord h hs
  | reserved100 rest => exact accounted_plainWord h hs
  | reserved101 rest => exact accounted_plainWord h hs
  | reserved111 rest => exact accounted_plainWord h hs
  | attach transport busGen windowCount chipId chipRev package fastCount fast => exact accounted_attach h
  | detach => unfold exec execDetach at h; exact accounted_command h (fun _ hu => hu.quiet)
  | scan => exact accounted_scan h
  | coreCount => unfold exec execCoreCount at h; exact accounted_query h
  | coreId index => unfold exec execCoreId at h; exact accounted_query h
  | coreRev index => unfold exec execCoreRev at h; exact accounted_query h
  | corePrimaryAddr index => unfold exec execCorePrimaryAddr at h; exact accounted_query h
  | corePrimarySize index => unfold exec execCorePrimarySize at h; exact accounted_query h
  | coreSecondaryAddr index => unfold exec execCoreSecondaryAddr at h; exact accounted_query h
  | coreSecondarySize index => unfold exec execCoreSecondarySize at h; exact accounted_query h
  | coreWrapperAddr index => unfold exec execCoreWrapperAddr at h; exact accounted_query h
  | oobRouterAddr => unfold exec execOobRouterAddr at h; exact accounted_query h
  | switchTo index => exact accounted_switchTo h
  | currentFocus => unfold exec execCurrentFocus at h; exact accounted_query h
  | accessRegister index offset mask value => exact accounted_accessRegister h
  | disable index ioBits =>
    exact accounted_lifecycleCommand h
      (fun wb _ hu => hu.withWrapper (fun _ hv => hv.disableBody ioBits wb) index wb)
  | reset index ioBits resetOnlyBits =>
    exact accounted_lifecycleCommand h (fun wb _ hu => hu.whileResetting
      (fun _ hv => hv.withWrapper (fun _ hw => hw.resetBody ioBits resetOnlyBits wb) index wb) index)
  | isUp index => exact accounted_isUp h
  | cflags index mask value => exact accounted_flagsCommand h
  | sflags index mask value => exact accounted_flagsCommand h
  | armTimeouts => exact accounted_armTimeouts h
  | clearTimeout => exact accounted_clearTimeout h

/-! ## One step -/

/-- An instruction is fetched with a stream read, or off the command port. -/
theorem fetch_run_accounted {i : Instr} {u : State} (h : fetch s = .run i u) : Accounted s u := by
  unfold fetch fetchStream fetchCommand at h
  split at h
  · split at h
    · cases h
    · cases h
      exact ((Accounted.refl s).memRead .plain s.streamPa).quiet
  · split at h
    case h_5 => cases h; exact (Accounted.refl s).quiet
    all_goals cases h

/-- With nothing to decode, the block waits or the scan fails at the limit. -/
theorem fetch_settled_accounted {u : State} (h : fetch s = .settled u) : Accounted s u := by
  unfold fetch fetchStream fetchCommand at h
  split at h
  · split at h
    · cases h
      exact (Accounted.refl s).parseFail _
    · cases h
  · split at h
    case h_1 | h_2 => cases h; exact Accounted.refl s
    all_goals cases h

/-- Every step's events account for what it does outside the block. -/
theorem step_accounted (h : step s = .next t) : Accounted s t := by
  unfold step at h
  split at h
  case h_1 i u hf => exact (fetch_run_accounted hf).trans (exec_accounted h)
  case h_2 u hf => cases h; exact fetch_settled_accounted hf
  case h_3 => cases h

end Instructions

/-- Settles O56: the events of `step_accounted` are those the statement asks for. -/
theorem traceAccountsForBus : Obligations.TraceAccountsForBus := by
  intro s t h
  obtain ⟨es, hbus⟩ := step_accounted h
  exact ⟨es, hbus.trace, hbus.mem, hbus.winReg, hbus.winWrap, hbus.device, hbus.params⟩

end Sys2Proof.Machine

/-! PROOFS. What a command between scans can do, said once (43_focus.md, 44_masked_access.md, 45_lifecycle.md,
46_timeout_monitor.md). A command other than ATTACH, DETACH and SCAN is bus work, a Map before bus work, a focus
switch, or bus work inside a critical section (`CommandEffect`); what it keeps is proved of these. -/

namespace Sys2Proof.Machine

/-! ## Events that leave the interrupt mask alone -/

/-- None of these events masks or restores interrupts. -/
def MaskFree (es : List Event) : Prop := ∀ e ∈ es, e.isIrq = false

@[simp] theorem isIrq_memRead (path : AccessPath) (pa : Addr) (v : Word) : (Event.memRead path pa v).isIrq = false :=
  rfl
@[simp] theorem isIrq_memWrite (path : AccessPath) (pa : Addr) (v : Word) :
    (Event.memWrite path pa v).isIrq = false := rfl
@[simp] theorem isIrq_winSet (w : Window) (base : Addr) : (Event.winSet w base).isIrq = false := rfl
@[simp] theorem isIrq_map (pa size : Addr) : (Event.map pa size).isIrq = false := rfl
@[simp] theorem isIrq_delay (n : Nat) : (Event.delay n).isIrq = false := rfl

@[simp] theorem maskFree_nil : MaskFree [] := fun _ h => nomatch h

@[simp] theorem maskFree_cons (e : Event) (es : List Event) :
    MaskFree (e :: es) ↔ e.isIrq = false ∧ MaskFree es := List.forall_mem_cons

@[simp] theorem maskFree_append (a b : List Event) : MaskFree (a ++ b) ↔ MaskFree a ∧ MaskFree b :=
  List.forall_mem_append

/-- The events of a focus switch are Maps and WinSets. -/
theorem MaskFree.of_isSwitch {es : List Event} (h : ∀ e ∈ es, (∃ a n, e = .map a n) ∨ ∃ w b, e = .winSet w b) :
    MaskFree es := by
  intro e he
  rcases h e he with ⟨a, n, rfl⟩ | ⟨w, b, rfl⟩ <;> rfl

theorem maskFree_switchEvents (s : State) (i : Word) : MaskFree (s.switchEvents i) := by
  unfold State.switchEvents
  split
  · simp
  · split
    · split <;> simp
    · simp

/-! ## Bus work: what the body of a command does at the registers of one core -/

/-- From `s` to `u` there are only bus accesses, Maps, delays and log entries: focus, caches, windows and mask stay. -/
def BusWork (s u : State) : Prop := ∃ es lg, Body s u es lg ∧ MaskFree es

namespace BusWork

variable {s u v : State}

theorem refl (s : State) : BusWork s s := ⟨[], [], Body.refl s, maskFree_nil⟩

theorem trans (h : BusWork s u) (k : BusWork u v) : BusWork s v := by
  obtain ⟨_, _, hb, he⟩ := h
  obtain ⟨_, _, kb, ke⟩ := k
  exact ⟨_, _, hb.trans kb, (maskFree_append _ _).mpr ⟨he, ke⟩⟩

theorem logEntry (h : BusWork s u) (e : LogEntry) : BusWork s (u.logEntry e) :=
  h.trans ⟨_, _, body_logEntry e u, maskFree_nil⟩

theorem map (h : BusWork s u) (pa size : Addr) : BusWork s (u.map pa size) :=
  h.trans ⟨_, _, body_map pa size u, by simp⟩

theorem delay (h : BusWork s u) (n : Nat) : BusWork s (u.delay n) :=
  h.trans ⟨_, _, body_delay n u, by simp⟩

theorem memRead (h : BusWork s u) (path : AccessPath) (pa : Addr) : BusWork s (u.memRead path pa).2 :=
  h.trans ⟨_, _, body_memRead path pa u, by simp⟩

theorem memWrite (h : BusWork s u) (path : AccessPath) (pa : Addr) (w : Word) : BusWork s (u.memWrite path pa w) :=
  h.trans ⟨_, _, body_memWrite path pa w u, by simp⟩

theorem rmw (h : BusWork s u) (path : AccessPath) (pa : Addr) (mask value : Word) :
    BusWork s (u.rmw path pa mask value).2 := by
  unfold State.rmw
  split
  · exact h.memRead _ _
  · exact ((h.memRead _ _).memWrite _ _ _).memRead _ _

theorem wrapRead (h : BusWork s u) (wb x : Addr) : BusWork s (u.wrapRead wb x).2 := h.memRead _ _

theorem wrapWrite (h : BusWork s u) (wb x : Addr) (w : Word) : BusWork s (u.wrapWrite wb x w) := h.memWrite _ _ _

theorem waitPending (h : BusWork s u) (wb : Addr) (n : Nat) : BusWork s (u.waitPending wb n).2 := by
  induction n generalizing u with
  | zero => exact h.wrapRead _ _
  | succ n ih =>
    have hread := h.wrapRead wb Config.resetStatus
    unfold State.waitPending
    dsimp only
    split
    · exact hread
    · split
      · exact hread
      · exact ih (hread.delay _)

theorem shortWait (h : BusWork s u) (wb : Addr) : BusWork s (u.shortWait wb) := by
  unfold State.shortWait
  dsimp only
  split
  · exact h.waitPending wb _
  · exact (h.waitPending wb _).logEntry _

theorem twoTierWait (h : BusWork s u) (wb : Addr) : BusWork s (u.twoTierWait wb) := by
  have hlong := fun n => (h.waitPending wb u.params.shortPolls).waitPending wb n
  unfold State.twoTierWait
  dsimp only
  split
  · exact h.waitPending wb _
  · split
    · exact hlong _
    · exact (hlong _).logEntry _

theorem disableBody (h : BusWork s u) (ioBits : Word) (wb : Addr) : BusWork s (disableBody ioBits wb u).2 := by
  have hread := h.wrapRead wb Config.resetCtrl
  unfold Machine.disableBody
  dsimp only
  split
  · exact hread
  · exact ((((((hread.twoTierWait wb).wrapWrite wb _ _).wrapRead wb _).delay _).wrapWrite wb _ _).wrapRead
      wb _).delay _

theorem clearReset (h : BusWork s u) (wb : Addr) (n : Nat) : BusWork s (u.clearReset wb n).2 := by
  induction n generalizing u with
  | zero => exact h
  | succ n ih =>
    have hpass := ((h.shortWait wb).wrapWrite wb Config.resetCtrl 0#32).wrapRead wb Config.resetCtrl
    unfold State.clearReset
    dsimp only
    split
    · exact hpass
    · exact ih hpass

theorem resetBody (h : BusWork s u) (ioBits resetOnlyBits : Word) (wb : Addr) :
    BusWork s (resetBody ioBits resetOnlyBits wb u).2 := by
  have hloop := fun a b c n =>
    ((((((h.twoTierWait wb).wrapWrite wb Config.resetCtrl a).delay b).shortWait wb).wrapWrite wb Config.ioCtrl
      c).shortWait wb).clearReset wb n
  unfold Machine.resetBody
  dsimp only
  refine ((wrapWrite ?_ wb _ _).wrapRead wb _).delay _
  split
  · exact hloop _ _ _ _
  · exact (hloop _ _ _ _).logEntry _

theorem isUpBody (h : BusWork s u) (wb : Addr) : BusWork s (isUpBody wb u).2 := by
  have hread := h.wrapRead wb Config.ioCtrl
  unfold Machine.isUpBody
  dsimp only
  split
  · exact hread.wrapRead _ _
  · exact hread

theorem armBridges (h : BusWork s u) (bs : List Addr) : BusWork s (u.armBridges bs) := by
  induction bs generalizing u with
  | nil => exact h
  | cons b rest ih => exact ih ((h.map _ _).memWrite _ _ _)

theorem waitAck (h : BusWork s u) (b : Addr) (n : Nat) : BusWork s (u.waitAck b n).2 := by
  induction n generalizing u with
  | zero => exact h
  | succ n ih =>
    have hread := h.memRead .plain (b + Config.errLogStatus)
    unfold State.waitAck
    dsimp only
    split
    · exact hread
    · exact ih hread

theorem pulse (h : BusWork s u) (b : Addr) : BusWork s (u.pulse b) :=
  (((h.memWrite _ _ _).memRead _ _).memWrite _ _ _).memRead _ _

theorem clearBridge (h : BusWork s u) (b : Addr) : BusWork s (u.clearBridge b).2 := by
  have hread := (h.map b Config.coreWindowSize).memRead .plain (b + Config.errLogStatus)
  have hack := fun n => (hread.memWrite .plain (b + Config.errLogDone) 3#32).waitAck b n
  unfold State.clearBridge
  dsimp only
  split
  · split
    · exact (hack _).pulse b
    · exact (hack _).logEntry _
  · exact hread

theorem clearBridges (h : BusWork s u) (bs : List Addr) : BusWork s (u.clearBridges bs).2 := by
  induction bs generalizing u with
  | nil => exact h
  | cons b rest ih => exact ih (h.clearBridge b)

end BusWork

/-! ## What a command can do -/

/-- What a command other than ATTACH, DETACH and SCAN does between its beginning `s` and its response. -/
inductive CommandEffect : State → State → Prop
  /-- nothing, or bus work alone -/
  | busWork {s u : State} (h : BusWork s u) : CommandEffect s u
  /-- on Flat, bus work on core i's registers, mapped first if they are not (R312) -/
  | mapCore {s u : State} {i : Word} {d : CoreDescriptor} (hrow : s.row i = some d)
      (h : BusWork (s.mapCore i d.primaryAddr) u) : CommandEffect s u
  /-- on Flat, bus work on core i's wrapper, mapped first if it is not (R341) -/
  | mapWrapper {s u : State} {i : Word} {d : CoreDescriptor} {wb : Addr} (hrow : s.row i = some d)
      (hwrap : d.wrapperAddr = some wb) (h : BusWork (s.mapWrapper i wb) u) : CommandEffect s u
  /-- SWITCH_TO (R281) -/
  | switchTo (s : State) (i : Word) : CommandEffect s (s.switchTo i)
  /-- on a windowed transport, bus work inside a critical section (R290) -/
  | critical {α : Type} {s : State} {body : State → α × State} (i : Word) (hflat : s.flat = false)
      (hbody : ∀ v, BusWork v (body v).2) : CommandEffect s (s.withFocus i body).2
  /-- any of these, run as the RESET of core i (R58) -/
  | resetting {s u : State} (i : Word) (h : CommandEffect { s with resetting := some i } u) :
      CommandEffect s { u with resetting := s.resetting }

theorem CommandEffect.refl (s : State) : CommandEffect s s := .busWork (.refl s)

/-- The range checks of R341 give the row and its wrapper. -/
theorem usableWrapper_some {s : State} {i : Word} {d : CoreDescriptor} {wb : Addr}
    (h : s.usableWrapper i = some (d, wb)) : s.row i = some d ∧ d.wrapperAddr = some wb := by
  unfold State.usableWrapper at h
  split at h
  · cases h
  · rename_i d' hrow
    split at h
    · cases h
    · rename_i wb' hwrap
      split at h
      · cases h
      · cases h
        exact ⟨hrow, hwrap⟩

/-- A wrapper body on a core whose wrapper can be reached. -/
theorem CommandEffect.withWrapper {α : Type} {s : State} {i : Word} {d : CoreDescriptor} {wb : Addr}
    {body : State → α × State} (h : s.usableWrapper i = some (d, wb)) (hbody : ∀ v, BusWork v (body v).2) :
    CommandEffect s (s.withWrapper i wb body).2 := by
  obtain ⟨hrow, hwrap⟩ := usableWrapper_some h
  unfold State.withWrapper
  cases hf : s.flat
  · exact .critical i hf hbody
  · exact .mapWrapper hrow hwrap (hbody _)

/-- ACCESS_REGISTER on a row of the table, on its three paths (R311 to R314). -/
theorem CommandEffect.access {s : State} {i : Word} {d : CoreDescriptor} (hrow : s.row i = some d)
    (off mask value : Word) : CommandEffect s (s.access i d off mask value).2 := by
  unfold State.access
  cases hf : s.flat
  · simp only [Bool.false_eq_true, if_false]
    split
    · exact .busWork ((BusWork.refl s).rmw _ _ _ _)
    · exact .critical i hf (fun v => (BusWork.refl v).rmw _ _ _ _)
  · exact .mapCore hrow ((BusWork.refl _).rmw _ _ _ _)

/-- A command ran in the ready block `s` and answered `t`. -/
def Commanded (s t : State) : Prop :=
  s.ready ∧ ∃ (u : State) (ws : List Word), CommandEffect s.begin u ∧ t = u.respond ws

section Commands

variable {s t : State}

theorem commanded_of_body {body : State → List Word × State} (h : command body s = .next t)
    (hbody : ∀ u, CommandEffect u (body u).2) : Commanded s t := by
  obtain ⟨hready, rfl⟩ := command_next h
  exact ⟨hready, _, _, hbody s.begin, rfl⟩

theorem commanded_query {answer : State → List Word} (h : command (fun u => (answer u, u)) s = .next t) :
    Commanded s t := commanded_of_body h CommandEffect.refl

theorem commanded_lifecycle {i : Word} {run : Addr → State → Unit × State}
    (h : lifecycleCommand i run s = .next t)
    (hrun : ∀ u d wb, u.usableWrapper i = some (d, wb) → CommandEffect u (run wb u).2) : Commanded s t := by
  refine commanded_of_body h (fun u => ?_)
  split
  · exact .refl u
  · exact hrun u _ _ ‹_›

theorem commanded_flags {x : Addr} {i mask value : Word} (h : flagsCommand x i mask value s = .next t) :
    Commanded s t := by
  refine commanded_of_body h (fun u => ?_)
  split
  · exact .refl u
  · split
    · exact .busWork ((BusWork.refl u).logEntry _)
    · exact .withWrapper ‹_› (fun v => (BusWork.refl v).rmw _ _ _ _)

theorem commanded_isUp {i : Word} (h : execIsUp i s = .next t) : Commanded s t := by
  refine commanded_of_body h (fun u => ?_)
  split
  · exact .refl u
  · exact .withWrapper ‹_› (fun v => (BusWork.refl v).isUpBody _)

theorem commanded_switchTo {i : Word} (h : execSwitchTo i s = .next t) : Commanded s t := by
  refine commanded_of_body h (fun u => ?_)
  split
  · exact .switchTo u i
  · exact .refl u

theorem commanded_access {i off mask value : Word} (h : execAccessRegister i off mask value s = .next t) :
    Commanded s t := by
  refine commanded_of_body h (fun u => ?_)
  split
  · split
    · exact .access ‹_› off mask value
    · exact .refl u
  · exact .refl u

theorem commanded_armTimeouts (h : execArmTimeouts s = .next t) : Commanded s t := by
  refine commanded_of_body h (fun u => ?_)
  split
  · exact .busWork ((BusWork.refl u).armBridges _)
  · exact .refl u

theorem commanded_clearTimeout (h : execClearTimeout s = .next t) : Commanded s t := by
  refine commanded_of_body h (fun u => ?_)
  split
  · exact .busWork ((BusWork.refl u).clearBridges _)
  · exact .refl u

/-- Every command but SCAN, DETACH and ATTACH has one of the effects of `CommandEffect`. -/
theorem exec_commanded {i : Instr} (hpos : i.position = none) (hscan : i ≠ .scan) (hdetach : i ≠ .detach)
    (hattach : isAttach i = false) (h : exec i s = .next t) : Commanded s t := by
  cases i with
  | attach transport busGen windowCount chipId chipRev package fastCount fast => cases hattach
  | detach => exact absurd rfl hdetach
  | scan => exact absurd rfl hscan
  | coreCount => unfold exec execCoreCount at h; exact commanded_query h
  | coreId index => unfold exec execCoreId at h; exact commanded_query h
  | coreRev index => unfold exec execCoreRev at h; exact commanded_query h
  | corePrimaryAddr index => unfold exec execCorePrimaryAddr at h; exact commanded_query h
  | corePrimarySize index => unfold exec execCorePrimarySize at h; exact commanded_query h
  | coreSecondaryAddr index => unfold exec execCoreSecondaryAddr at h; exact commanded_query h
  | coreSecondarySize index => unfold exec execCoreSecondarySize at h; exact commanded_query h
  | coreWrapperAddr index => unfold exec execCoreWrapperAddr at h; exact commanded_query h
  | oobRouterAddr => unfold exec execOobRouterAddr at h; exact commanded_query h
  | currentFocus => unfold exec execCurrentFocus at h; exact commanded_query h
  | switchTo index => exact commanded_switchTo h
  | accessRegister index offset mask value => exact commanded_access h
  | disable index ioBits =>
    exact commanded_lifecycle h
      (fun _ _ wb hw => .withWrapper hw (fun v => (BusWork.refl v).disableBody ioBits wb))
  | reset index ioBits resetOnlyBits =>
    exact commanded_lifecycle h (fun _ _ wb hw => .resetting index
      (.withWrapper hw (fun v => (BusWork.refl v).resetBody ioBits resetOnlyBits wb)))
  | isUp index => exact commanded_isUp h
  | cflags index mask value => exact commanded_flags h
  | sflags index mask value => exact commanded_flags h
  | armTimeouts => exact commanded_armTimeouts h
  | clearTimeout => exact commanded_clearTimeout h
  | cia | cib | mpd | asdSlave | asdBridge | asdSwrap | asdMwrap | addrHi | szd | sizeHi | endOnes | endRom
  | invalid | reserved011 | reserved100 | reserved101 | reserved111 => cases hpos

end Commands

/-! ## What every command keeps -/

/-- The mask is not touched, or taken once at the start and restored at the end with the state saved (R56). -/
def MaskPaired (es : List Event) : Prop :=
  MaskFree es ∨ ∃ saved mid, es = .irqMask saved :: mid ++ [.irqRestore saved] ∧ MaskFree mid

/-- A critical section ends with the switch back, if there is one, and the mask restored. -/
theorem leaveEvents_eq (s : State) (i : Word) :
    ∃ back, s.leaveEvents i = back ++ [.irqRestore (Config.irqSaved s.trace)] ∧ MaskFree back := by
  refine ⟨_, rfl, ?_⟩
  split
  · split
    · exact maskFree_nil
    · exact maskFree_switchEvents _ _
  · exact maskFree_nil

/-- A critical section of bus work masks at its start and restores at its end. -/
theorem maskPaired_section {es : List Event} (h : MaskFree es) (s : State) (i : Word) :
    MaskPaired (s.enterEvents i ++ es ++ s.leaveEvents i) := by
  obtain ⟨back, hleave, hback⟩ := leaveEvents_eq s i
  refine .inr ⟨Config.irqSaved s.trace, s.switchEvents i ++ es ++ back, ?_, ?_⟩
  · simp [State.enterEvents, hleave]
  · simp [h, hback, maskFree_switchEvents]

/-- What lies outside focus, caches and mask is kept by every command, and the mask is restored. -/
theorem CommandEffect.acts {s u : State} (h : CommandEffect s u) :
    ∃ es lg, Acts s u es lg ∧ MaskPaired es ∧ (s.irqSaved = none → u.irqSaved = none) := by
  induction h with
  | busWork h =>
    obtain ⟨es, lg, hb, he⟩ := h
    exact ⟨es, lg, hb.toActs, .inl he, hb.irqSaved.trans⟩
  | @mapCore s u i d hrow h =>
    obtain ⟨es, lg, hb, he⟩ := h
    obtain ⟨hmap, -, -, hsame⟩ := mapCore_acts i d.primaryAddr s
    refine ⟨_, _, hmap.trans hb.toActs, .inl ?_, (hb.irqSaved.trans hsame.irqSaved).trans⟩
    unfold mapOnce
    split <;> simpa using he
  | @mapWrapper s u i d wb hrow hwrap h =>
    obtain ⟨es, lg, hb, he⟩ := h
    obtain ⟨hmap, -, -, hsame⟩ := mapWrapper_acts i wb s
    refine ⟨_, _, hmap.trans hb.toActs, .inl ?_, (hb.irqSaved.trans hsame.irqSaved).trans⟩
    unfold mapOnce
    split <;> simpa using he
  | switchTo s i =>
    obtain ⟨es, ha, he, hirq⟩ := switchTo_acts i s
    exact ⟨es, [], ha, .inl (.of_isSwitch he), hirq.trans⟩
  | critical i hflat hbody =>
    obtain ⟨es, lg, hb, he⟩ := hbody _
    obtain ⟨ha, -, -, -, hirq, -⟩ := withFocus_windowed hflat hb
    exact ⟨_, lg, ha, maskPaired_section he _ i, fun _ => hirq⟩
  | resetting i h ih =>
    obtain ⟨es, lg, ha, he, hirq⟩ := ih
    exact ⟨es, lg, whileResetting_acts (i := i) (body := fun _ => ((), _)) ha, he, hirq⟩

theorem Commanded.acts {s t : State} (h : Commanded s t) :
    ∃ u ws es lg, t = State.respond ws u ∧ Acts s.begin u es lg ∧ MaskPaired es ∧
      (s.irqSaved = none → u.irqSaved = none) := by
  obtain ⟨-, u, ws, he, rfl⟩ := h
  obtain ⟨es, lg, ha, hm, hirq⟩ := he.acts
  exact ⟨u, ws, es, lg, rfl, ha, hm, hirq⟩

/-- Settles O33: no command but those three has an effect on the table (`CommandEffect.acts`). -/
theorem onlyScanChangesTable : Obligations.OnlyScanChangesTable := by
  intro s i t hpos hscan hdetach hattach h
  obtain ⟨u, ws, es, lg, rfl, ha, -⟩ := (exec_commanded hpos hscan hdetach hattach h).acts
  exact ⟨ha.table, ha.bws, ha.oob, ha.scanStatus, ha.cfg, ha.attached, ha.scan, ha.params⟩

end Sys2Proof.Machine

/-! PROOFS. The mapping caches and the focus: what SWITCH_TO does on each transport, and what every command keeps
of them (10_state.md R42, R43, 43_focus.md R281, R284, R287). -/

namespace Sys2Proof.Machine

/-! ## The mapping caches (R43) -/

theorem cacheGet_cacheOnce (c : List (Option Addr)) (i k : Nat) (b : Addr) :
    cacheGet (cacheOnce c i b) k = if k = i then some ((cacheGet c i).getD b) else cacheGet c k := by
  unfold cacheOnce
  cases h : cacheGet c i with
  | none => simp [cacheGet_cacheSet]
  | some a =>
    by_cases hk : k = i
    · subst hk
      simp [h]
    · simp [hk]

/-- A mapping once made is kept. -/
theorem cacheOnce_keeps {c : List (Option Addr)} {k : Nat} {a : Addr} (h : cacheGet c k = some a) (i : Nat)
    (b : Addr) : cacheGet (cacheOnce c i b) k = some a := by
  rw [cacheGet_cacheOnce]
  split
  · rename_i hk
    rw [← hk, h]
    rfl
  · exact h

/-- What holds of every mapping still does after one more of which it holds. -/
theorem forall_cacheOnce {c : List (Option Addr)} {P : Nat → Addr → Prop}
    (h : ∀ k a, cacheGet c k = some a → P k a) {i : Nat} {b : Addr} (hi : P i b) :
    ∀ k a, cacheGet (cacheOnce c i b) k = some a → P k a := by
  intro k a hk
  rw [cacheGet_cacheOnce] at hk
  split at hk
  · rename_i hki
    subst hki
    cases hc : cacheGet c k with
    | none =>
      rw [hc] at hk
      cases hk
      exact hi
    | some a' =>
      rw [hc] at hk
      cases hk
      exact h k _ hc
  · exact h k a hk

/-- Every mapping of `s` is one of `u`. -/
def KeepsMaps (s u : State) : Prop := ∀ (k : Nat) (a : Addr),
  (cacheGet s.mapReg k = some a → cacheGet u.mapReg k = some a) ∧
  (cacheGet s.mapWrap k = some a → cacheGet u.mapWrap k = some a)

theorem KeepsMaps.of_eq {s u : State} (hreg : u.mapReg = s.mapReg) (hwrap : u.mapWrap = s.mapWrap) :
    KeepsMaps s u := by
  intro k a
  rw [hreg, hwrap]
  exact ⟨id, id⟩

theorem KeepsMaps.trans {s u v : State} (h : KeepsMaps s u) (k : KeepsMaps u v) : KeepsMaps s v :=
  fun n a => ⟨fun hr => (k n a).1 ((h n a).1 hr), fun hw => (k n a).2 ((h n a).2 hw)⟩

theorem BusWork.keepsMaps {s u : State} (h : BusWork s u) : KeepsMaps s u := by
  obtain ⟨_, _, hb, -⟩ := h
  exact .of_eq hb.mapReg hb.mapWrap

theorem mapCore_keepsMaps (i : Word) (b : Addr) (s : State) : KeepsMaps s (s.mapCore i b) := by
  obtain ⟨-, hreg, hwrap, -⟩ := mapCore_acts i b s
  intro k a
  rw [hreg, hwrap]
  exact ⟨fun h => cacheOnce_keeps h _ _, id⟩

theorem mapWrapper_keepsMaps (i : Word) (b : Addr) (s : State) : KeepsMaps s (s.mapWrapper i b) := by
  obtain ⟨-, hwrap, hreg, -⟩ := mapWrapper_acts i b s
  intro k a
  rw [hreg, hwrap]
  exact ⟨id, fun h => cacheOnce_keeps h _ _⟩

/-! ## SWITCH_TO on Flat -/

theorem focusFlat_mapReg (i : Word) (d : CoreDescriptor) (s : State) :
    (s.focusFlat i d).mapReg = cacheOnce s.mapReg i.toNat d.primaryAddr := by
  obtain ⟨-, hreg, -, -⟩ := mapCore_acts i d.primaryAddr s
  unfold State.focusFlat
  cases d.wrapperAddr with
  | none => exact hreg
  | some wb =>
    obtain ⟨-, -, hreg', -⟩ := mapWrapper_acts i wb (s.mapCore i d.primaryAddr)
    exact hreg'.trans hreg

theorem focusFlat_mapWrap (i : Word) (d : CoreDescriptor) (s : State) :
    (s.focusFlat i d).mapWrap = d.wrapperAddr.elim s.mapWrap (cacheOnce s.mapWrap i.toNat) := by
  obtain ⟨-, -, hwrap, -⟩ := mapCore_acts i d.primaryAddr s
  unfold State.focusFlat
  cases d.wrapperAddr with
  | none => exact hwrap
  | some wb =>
    obtain ⟨-, hwrap', -, -⟩ := mapWrapper_acts i wb (s.mapCore i d.primaryAddr)
    rw [hwrap] at hwrap'
    exact hwrap'

/-- The handles of a core in focus on Flat are its mappings, old or new. -/
theorem focusFlat_focus (i : Word) (d : CoreDescriptor) (s : State) :
    (s.focusFlat i d).focus =
      { idx := some i
        reg := some (.mapped ((cacheGet s.mapReg i.toNat).getD d.primaryAddr))
        wrap := d.wrapperAddr.map fun wb => .mapped ((cacheGet s.mapWrap i.toNat).getD wb) } := by
  obtain ⟨-, hreg, hwrap, -⟩ := mapCore_acts i d.primaryAddr s
  unfold State.focusFlat
  cases d.wrapperAddr with
  | none => simp [hreg, cacheGet_cacheOnce]
  | some wb =>
    obtain ⟨-, hwrap', hreg', -⟩ := mapWrapper_acts i wb (s.mapCore i d.primaryAddr)
    simp [hreg, hwrap, hreg', hwrap', cacheGet_cacheOnce]

theorem focusFlat_keepsMaps (i : Word) (d : CoreDescriptor) (s : State) : KeepsMaps s (s.focusFlat i d) := by
  intro k a
  rw [focusFlat_mapReg, focusFlat_mapWrap]
  refine ⟨fun h => cacheOnce_keeps h _ _, fun h => ?_⟩
  cases d.wrapperAddr with
  | none => exact h
  | some wb => exact cacheOnce_keeps h _ _

theorem switchTo_keepsMaps (i : Word) (s : State) : KeepsMaps s (s.switchTo i) := by
  cases hrow : s.row i with
  | none => rw [switchTo_none hrow]; exact .of_eq rfl rfl
  | some d =>
    cases hf : s.flat
    · rw [switchTo_windowed hrow hf]; exact .of_eq rfl rfl
    · rw [switchTo_flat hrow hf]; exact focusFlat_keepsMaps i d s

theorem mapCore_bus (i : Word) (b : Addr) (s : State) : (s.mapCore i b).bus = s.bus := by
  unfold State.mapCore
  split <;> rfl

theorem mapWrapper_bus (i : Word) (b : Addr) (s : State) : (s.mapWrapper i b).bus = s.bus := by
  unfold State.mapWrapper
  split <;> rfl

/-- A focus switch makes no bus access. -/
theorem switchTo_bus (i : Word) (s : State) : (s.switchTo i).bus = s.bus := by
  cases hrow : s.row i with
  | none => rw [switchTo_none hrow]
  | some d =>
    cases hf : s.flat
    · rw [switchTo_windowed hrow hf]
    · rw [switchTo_flat hrow hf]
      unfold State.focusFlat
      split
      · exact (mapWrapper_bus _ _ _).trans (mapCore_bus _ _ _)
      · exact mapCore_bus _ _ _

/-- Core i, with row `d`, is mapped: its register window, and its wrapper if it has one (R43). -/
def State.Mapped (s : State) (i : Word) (d : CoreDescriptor) : Prop :=
  cacheGet s.mapReg i.toNat ≠ none ∧ (d.wrapperAddr ≠ none → cacheGet s.mapWrap i.toNat ≠ none)

theorem KeepsMaps.mapped {s u : State} (h : KeepsMaps s u) {i : Word} {d : CoreDescriptor} (hm : s.Mapped i d) :
    u.Mapped i d := by
  obtain ⟨hreg, hwrap⟩ := hm
  simp only [State.Mapped, Option.ne_none_iff_exists'] at *
  obtain ⟨a, ha⟩ := hreg
  refine ⟨⟨a, (h _ a).1 ha⟩, fun hd => ?_⟩
  obtain ⟨b, hb⟩ := hwrap hd
  exact ⟨b, (h _ b).2 hb⟩

theorem focusFlat_mapped (i : Word) (d : CoreDescriptor) (s : State) : (s.focusFlat i d).Mapped i d := by
  unfold State.Mapped
  rw [focusFlat_mapReg, focusFlat_mapWrap]
  cases d.wrapperAddr <;> simp [cacheGet_cacheOnce]

theorem mapOnce_length (c : Option Addr) (b : Addr) : (mapOnce c b).length ≤ 1 := by cases c <;> simp [mapOnce]

theorem mem_mapOnce {c : Option Addr} {b : Addr} {e : Event} (h : e ∈ mapOnce c b) :
    e = .map b Config.coreWindowSize := by
  cases c <;> simp_all [mapOnce]

theorem mapOnce_cached {c : Option Addr} (h : c ≠ none) (b : Addr) : mapOnce c b = [] := by
  cases c with
  | none => exact absurd rfl h
  | some a => rfl

/-- The events of SWITCH_TO(i) on Flat: a Map for the core and one for its wrapper, each only if not yet made. -/
theorem switchTo_flat_acts (i : Word) {s : State} (hf : s.flat = true) :
    ∃ es, Acts s (s.switchTo i) es [] ∧ es.length ≤ 2 ∧ (∀ e ∈ es, ∃ pa size, e = .map pa size) ∧
      ∀ d, s.row i = some d → (s.switchTo i).Mapped i d ∧ (s.Mapped i d → es = []) := by
  cases hrow : s.row i with
  | none =>
    rw [switchTo_none hrow]
    exact ⟨[], Acts.refl s, by simp, by simp, by simp⟩
  | some d =>
    obtain ⟨ha, -⟩ := focusFlat_acts i d s
    have hm := focusFlat_mapped i d s
    have hlen := mapOnce_length (cacheGet s.mapReg i.toNat) d.primaryAddr
    rw [switchTo_flat hrow hf]
    cases hw : d.wrapperAddr with
    | none =>
      simp only [hw, List.append_nil] at ha
      refine ⟨_, ha, by omega, fun e he => ⟨_, _, mem_mapOnce he⟩, ?_⟩
      rintro _ ⟨⟩
      exact ⟨hm, fun hmapped => mapOnce_cached hmapped.1 _⟩
    | some wb =>
      simp only [hw] at ha
      have hlen' := mapOnce_length (cacheGet s.mapWrap i.toNat) wb
      refine ⟨_, ha, by simp only [List.length_append]; omega, fun e he => ?_, ?_⟩
      · rcases List.mem_append.mp he with he | he <;> exact ⟨_, _, mem_mapOnce he⟩
      · rintro _ ⟨⟩
        refine ⟨hm, fun ⟨hreg, hwrap⟩ => ?_⟩
        rw [mapOnce_cached hreg, mapOnce_cached (hwrap (by simp [hw])), List.append_nil]

/-! ## Every command keeps a mapping -/

theorem CommandEffect.keepsMaps {s u : State} (h : CommandEffect s u) : KeepsMaps s u := by
  induction h with
  | busWork h => exact h.keepsMaps
  | mapCore hrow h => exact (mapCore_keepsMaps _ _ _).trans h.keepsMaps
  | mapWrapper hrow hwrap h => exact (mapWrapper_keepsMaps _ _ _).trans h.keepsMaps
  | switchTo s i => exact switchTo_keepsMaps i s
  | critical i hflat hbody =>
    obtain ⟨es, lg, hb, -⟩ := hbody _
    obtain ⟨-, -, hreg, hwrap, -⟩ := withFocus_windowed hflat hb
    exact .of_eq hreg hwrap
  | resetting i h ih => exact ih

theorem Commanded.keepsMaps {s t : State} (h : Commanded s t) : KeepsMaps s t := by
  obtain ⟨-, u, ws, he, rfl⟩ := h
  exact he.keepsMaps

/-- The events of a command that began in `s`. -/
theorem commandTrace_eq {s t : State} {es : List Event} (htrace : t.trace = s.trace ++ es)
    (hmark : t.traceMark = s.trace.length) : t.commandTrace = es := by
  unfold State.commandTrace
  rw [htrace, hmark, List.drop_left]

theorem exec_switchTo_next {s t : State} {i : Word} (h : exec (.switchTo i) s = .next t) :
    ∃ ws, t = (s.begin.switchTo i).respond ws := by
  unfold exec execSwitchTo at h
  obtain ⟨-, rfl⟩ := command_next h
  cases hrow : s.begin.row i with
  | none => exact ⟨answerOpt32 none .rangeError, by simp only [hrow, switchTo_none]⟩
  | some d => exact ⟨answerOpt32 (some i) .ok, rfl⟩

/-- SWITCH_TO on Flat, as a command. -/
theorem exec_switchTo_flat {s t : State} {i : Word} (hf : s.flat = true) (h : exec (.switchTo i) s = .next t) :
    t.commandTrace.length ≤ 2 ∧ (∀ e ∈ t.commandTrace, ∃ pa size, e = .map pa size) ∧ t.bus = s.bus ∧
      t.table = s.table ∧ t.cfg = s.cfg ∧ KeepsMaps s t ∧
      ∀ d, s.row i = some d → t.Mapped i d ∧ (s.Mapped i d → t.commandTrace = []) := by
  obtain ⟨ws, rfl⟩ := exec_switchTo_next h
  obtain ⟨es, ha, hlen, hmaps, hrow⟩ := switchTo_flat_acts (s := s.begin) i hf
  rw [commandTrace_eq (s := s) (t := (s.begin.switchTo i).respond ws) ha.trace ha.traceMark]
  exact ⟨hlen, hmaps, switchTo_bus i s.begin, ha.table, ha.cfg, switchTo_keepsMaps i s.begin, hrow⟩

theorem flat_iff (s : State) : s.flat = true ↔ s.cfg.transport = .flat := by simp [State.flat]

/-- Settles O35: the Maps are made once, since every command keeps them (`CommandEffect.keepsMaps`). -/
theorem flatSwitchMapsOnce : Obligations.FlatSwitchMapsOnce := by
  refine ⟨fun s i t hf h => ?_, fun s j t hpos hscan hdetach hattach h =>
    (exec_commanded hpos hscan hdetach hattach h).keepsMaps, fun s i k t u v hf hst htu huv => ?_⟩
  · obtain ⟨hlen, hmaps, hbus, -, -, -, hrow⟩ := exec_switchTo_flat ((flat_iff s).mpr hf) h
    exact ⟨hlen, hmaps, hbus, hrow⟩
  · have hft : t.cfg.transport = .flat ∧ t.table = s.table := by
      obtain ⟨-, -, -, htable, hcfg, -⟩ := exec_switchTo_flat ((flat_iff s).mpr hf) hst
      exact ⟨by rw [hcfg, hf], htable⟩
    obtain ⟨-, -, -, htable, hcfg, hkeep, -⟩ := exec_switchTo_flat ((flat_iff t).mpr hft.1) htu
    have hfu : u.flat = true := by rw [flat_iff, hcfg, hft.1]
    have hsecond := exec_switchTo_flat hfu huv
    cases hrow : u.row i with
    | none =>
      obtain ⟨ws, rfl⟩ := exec_switchTo_next huv
      rw [switchTo_none (s := u.begin) hrow]
      exact commandTrace_eq (s := u) (List.append_nil _).symm rfl
    | some d =>
      obtain ⟨-, -, -, -, -, -, hfirst⟩ := exec_switchTo_flat ((flat_iff s).mpr hf) hst
      have hrow' : s.row i = some d := by rw [← hrow, row_eq htable, row_eq hft.2]
      obtain ⟨-, -, -, -, -, -, hagain⟩ := hsecond
      exact (hagain d hrow).2 (hkeep.mapped (hfirst d hrow').1)

/-! ## The focus agrees with the table, the windows and the caches (R42, R281, R287) -/

namespace State.FocusInv

variable {s t u : State}

/-- A block with no focus and no mapping. -/
theorem of_unset (hfocus : s.focus = Focus.unset) (hreg : s.mapReg = []) (hwrap : s.mapWrap = []) : s.FocusInv where
  row p hp := by rw [hfocus] at hp; cases hp
  none_ _ := hfocus
  flat _ p d hp := by rw [hfocus] at hp; cases hp
  windowed _ p d hp := by rw [hfocus] at hp; cases hp
  cachedReg k a hk := by rw [hreg, cacheGet_nil] at hk; cases hk
  cachedWrap k a hk := by rw [hwrap, cacheGet_nil] at hk; cases hk

/-- It speaks of the focus, the table, the configuration, the caches and the windows alone. -/
theorem congr (h : s.FocusInv) (hfocus : t.focus = s.focus := by rfl) (htable : t.table = s.table := by rfl)
    (hcfg : t.cfg = s.cfg := by rfl) (hmapReg : t.mapReg = s.mapReg := by rfl)
    (hmapWrap : t.mapWrap = s.mapWrap := by rfl) (hreg : t.winReg = s.winReg := by rfl)
    (hwrap : t.winWrap = s.winWrap := by rfl) : t.FocusInv := by
  have hflat : t.flat = s.flat := by unfold State.flat; rw [hcfg]
  constructor
  · simpa only [hfocus, row_eq htable] using h.row
  · simpa only [hfocus] using h.none_
  · simpa only [hfocus, row_eq htable, hflat] using h.flat
  · simpa only [hfocus, row_eq htable, hflat, hreg, hwrap, hcfg] using h.windowed
  · simpa only [htable, hmapReg] using h.cachedReg
  · simpa only [htable, hmapWrap] using h.cachedWrap

theorem body {es : List Event} {lg : List LogEntry} (h : s.FocusInv) (k : Body s u es lg) : u.FocusInv :=
  h.congr k.focus k.table k.cfg k.mapReg k.mapWrap k.still.1 k.still.2

theorem busWork (h : s.FocusInv) (k : BusWork s u) : u.FocusInv := by
  obtain ⟨_, _, hb, -⟩ := k
  exact h.body hb

/-- Mapping a row's own register window. -/
theorem mapCore (h : s.FocusInv) {i : Word} {d : CoreDescriptor} (hrow : s.row i = some d) :
    (s.mapCore i d.primaryAddr).FocusInv := by
  obtain ⟨ha, hreg, hwrap, hsame⟩ := mapCore_acts i d.primaryAddr s
  have hbase : ({ s with mapReg := cacheOnce s.mapReg i.toNat d.primaryAddr } : State).FocusInv :=
    { h with cachedReg := forall_cacheOnce h.cachedReg ⟨d, hrow, rfl⟩ }
  exact hbase.congr hsame.focus ha.table ha.cfg hreg hwrap hsame.winReg hsame.winWrap

/-- Mapping a row's own wrapper. -/
theorem mapWrapper (h : s.FocusInv) {i : Word} {d : CoreDescriptor} {wb : Addr} (hrow : s.row i = some d)
    (hw : d.wrapperAddr = some wb) : (s.mapWrapper i wb).FocusInv := by
  obtain ⟨ha, hwrap, hreg, hsame⟩ := mapWrapper_acts i wb s
  have hbase : ({ s with mapWrap := cacheOnce s.mapWrap i.toNat wb } : State).FocusInv :=
    { h with cachedWrap := forall_cacheOnce h.cachedWrap ⟨d, hrow, hw⟩ }
  exact hbase.congr hsame.focus ha.table ha.cfg hreg hwrap hsame.winReg hsame.winWrap

/-- An old mapping of a row's register window is the row's. -/
theorem mapReg_getD (h : s.FocusInv) {i : Word} {d : CoreDescriptor} (hrow : s.row i = some d) :
    (cacheGet s.mapReg i.toNat).getD d.primaryAddr = d.primaryAddr := by
  cases hc : cacheGet s.mapReg i.toNat with
  | none => rfl
  | some a =>
    obtain ⟨d', hd', rfl⟩ := h.cachedReg _ _ hc
    cases hd'.symm.trans hrow
    rfl

/-- An old mapping of a row's wrapper is the row's. -/
theorem mapWrap_getD (h : s.FocusInv) {i : Word} {d : CoreDescriptor} {wb : Addr} (hrow : s.row i = some d)
    (hw : d.wrapperAddr = some wb) : (cacheGet s.mapWrap i.toNat).getD wb = wb := by
  cases hc : cacheGet s.mapWrap i.toNat with
  | none => rfl
  | some a =>
    obtain ⟨d', hd', ha⟩ := h.cachedWrap _ _ hc
    cases hd'.symm.trans hrow
    cases hw.symm.trans ha
    rfl

/-- SWITCH_TO on Flat. -/
theorem focusFlat (h : s.FocusInv) {i : Word} {d : CoreDescriptor} (hrow : s.row i = some d) (hf : s.flat = true) :
    (s.focusFlat i d).FocusInv := by
  obtain ⟨ha, -⟩ := focusFlat_acts i d s
  have hrows : ∀ p, (s.focusFlat i d).row p = s.row p := row_eq ha.table
  have hflat : (s.focusFlat i d).flat = true := by unfold State.flat; rw [ha.cfg]; exact hf
  have hfocus := focusFlat_focus i d s
  constructor
  · intro p hp
    rw [hfocus] at hp
    cases hp
    exact ⟨d, (hrows i).trans hrow⟩
  · intro hp
    rw [hfocus] at hp
    cases hp
  · intro _ p d' hp hd'
    rw [hfocus] at hp ⊢
    cases hp
    rw [hrows, hrow] at hd'
    cases hd'
    refine ⟨by rw [h.mapReg_getD hrow], ?_⟩
    cases hw : d.wrapperAddr with
    | none => rfl
    | some wb => simp only [Option.map_some, h.mapWrap_getD hrow hw]
  · intro hc
    rw [hflat] at hc
    cases hc
  · rw [focusFlat_mapReg, ha.table]
    exact forall_cacheOnce h.cachedReg ⟨d, hrow, rfl⟩
  · rw [focusFlat_mapWrap, ha.table]
    cases hw : d.wrapperAddr with
    | none => exact h.cachedWrap
    | some wb => exact forall_cacheOnce h.cachedWrap ⟨d, hrow, hw⟩

/-- SWITCH_TO on a windowed transport. -/
theorem switchTo_windowed (h : s.FocusInv) {i : Word} {d : CoreDescriptor} (hrow : s.row i = some d)
    (hf : s.flat = false) : (s.switchTo i).FocusInv := by
  rw [Machine.switchTo_windowed hrow hf]
  constructor
  · rintro p ⟨⟩
    exact ⟨d, hrow⟩
  · rintro ⟨⟩
  · intro hc
    cases hc.symm.trans hf
  · rintro - p d' ⟨⟩ hd'
    cases hd'.symm.trans hrow
    refine ⟨rfl, rfl, ?_, ?_⟩
    · rintro (hcount | hnone)
      · cases d.wrapperAddr <;> simp [hcount]
      · simp [hnone]
    · intro wb hcount hw
      change s.cfg.windowCount = 2 at hcount
      simp [hcount, hw]
  · exact h.cachedReg
  · exact h.cachedWrap

theorem switchTo (h : s.FocusInv) (i : Word) : (s.switchTo i).FocusInv := by
  cases hrow : s.row i with
  | none => rw [switchTo_none hrow]; exact h
  | some d =>
    cases hf : s.flat
    · exact h.switchTo_windowed hrow hf
    · rw [switchTo_flat hrow hf]
      exact h.focusFlat hrow hf

theorem withFocus {α : Type} (h : s.FocusInv) (i : Word) {body : State → α × State}
    (hbody : ∀ v, BusWork v (body v).2) : (s.withFocus i body).2.FocusInv := by
  have hmask : s.irqMask.2.FocusInv := h.congr
  have hin := (hmask.switchTo i).busWork (hbody _)
  unfold State.withFocus
  dsimp only
  split
  · split
    · exact hin.congr
    · exact (hin.switchTo _).congr
  · exact hin.congr

/-- Every command but ATTACH, DETACH and SCAN keeps it. -/
theorem commandEffect (h : s.FocusInv) (k : CommandEffect s u) : u.FocusInv := by
  induction k with
  | busWork k => exact h.busWork k
  | mapCore hrow k => exact (h.mapCore hrow).busWork k
  | mapWrapper hrow hwrap k => exact (h.mapWrapper hrow hwrap).busWork k
  | switchTo s i => exact h.switchTo i
  | critical i hflat hbody => exact h.withFocus i hbody
  | resetting i k ih => exact (ih h.congr).congr

end State.FocusInv

end Sys2Proof.Machine

/-! PROOFS. What one descriptor word can do, said once (40_stream_reader.md, 41_topology_scan.md R197 to R220).
`Parsing s u`: working off the word just read, the parse has come from `s` to `u`; the word then leaves the scan
going on, ends it in a ParseError, or ends it in success (`WordEffect`). -/

namespace Sys2Proof.Machine

/-! ## Addresses a unit is made of (R108, R109) -/

theorem hiLo_aligned {lo : Word} (h : lo.toNat % 4 = 0) (hi : Word) : WordAligned (hiLo hi lo) := by
  have hlt := lo.isLt
  simp only [WordAligned, hiLo, BitVec.toNat_append, Nat.shiftLeft_eq]
  rw [Nat.mul_comm, ← Nat.two_pow_add_eq_or_of_lt hlt]
  omega

theorem lowHalf_aligned (addr : BitVec 20) : (addr ++ 0#12 : Word).toNat % 4 = 0 := by
  simp only [BitVec.toNat_append, BitVec.toNat_ofNat, Nat.zero_mod, Nat.or_zero, Nat.shiftLeft_eq]
  omega

/-! ## The registers a word can change -/

/-- From `s` to `u` the parse works off one word: the cursor is at most pushed back at the start; then registers,
rows and sets are written as R197 has them, and warnings logged. An address is one of the unit being read, a multiple
of 4 if the part of it that `s` holds is. -/
inductive Parsing (s : State) : State → Prop
  | start : Parsing s s
  | pushedBack : Parsing s s.pushBack
  | warn {u : State} {e : LogEntry} (h : Parsing s u) (he : e = .warnHigh ∨ e = .warnWrapSize) :
      Parsing s (u.logEntry e)
  | goTo {u : State} {p : ScanPos} (h : Parsing s u) (hp : s.scan.pos.Aligned → p.Aligned) : Parsing s (u.goTo p)
  /-- the registers of the identity pair (R200) and the bridge flag (R205, R206) -/
  | identity {u : State} {r : ScanRegs} (h : Parsing s u)
      (hr : r = { u.scan with
        cia := r.cia, cib := r.cib, mfg := r.mfg, cid := r.cid, ccl := r.ccl, rev := r.rev, nmp := r.nmp
        nsp := r.nsp, nmw := r.nmw, nsw := r.nsw, br := r.br }) : Parsing s { u with scan := r }
  | primary {u : State} {a : Asd} (h : Parsing s u) (ha : s.scan.pos.Aligned → WordAligned a.addr) :
      Parsing s { u with scan := { u.scan with pri := a } }
  | secondary {u : State} {o : Option Asd} (h : Parsing s u)
      (ho : ∀ a, o = some a → a.size = Config.coreWindowSize) :
      Parsing s { u with scan := { u.scan with sec := o } }
  | wrapper {u : State} {o : Option Addr} (h : Parsing s u)
      (ho : s.scan.pos.Aligned → ∀ wb, o = some wb → WordAligned wb) :
      Parsing s { u with scan := { u.scan with wrap := o } }
  | router {u : State} {o : Option Addr} (h : Parsing s u) : Parsing s { u with oob := o }
  | bridge {u : State} {b : Addr} (h : Parsing s u) (hroom : u.bws.length ≠ u.params.maxBridges)
      (hb : s.scan.pos.Aligned → WordAligned b) : Parsing s { u with bws := u.bws ++ [b] }
  | row {u : State} (h : Parsing s u) (hroom : u.scan.rows.length ≠ u.params.maxCores) :
      Parsing s { u with scan := { u.scan with rows := u.scan.rows ++ [u.newRow] } }

/-- What a descriptor word can do: the scan goes on, fails (R221), or succeeds at END (R198, R222). -/
inductive WordEffect (s : State) : State → Prop
  | going {u : State} (h : Parsing s u) : WordEffect s u
  | failed {u : State} (h : Parsing s u) (c : ParseCause) : WordEffect s (u.parseFail c)
  | done (hpos : s.scan.pos = .identity) : WordEffect s s.scanDone

namespace Parsing

variable {s u : State}

/-! ## The control flow of R197, from the last step to the first -/

theorem wait {p : ScanPos} (h : Parsing s u) (hp : p.Aligned := by trivial) : WordEffect s (u.goTo p) :=
  .going (h.goTo fun _ => hp)

theorem strictHigh {next : State → State} (h : Parsing s u) (hnext : ∀ v, Parsing s v → WordEffect s (next v))
    (ah sh : Word) : WordEffect s (u.strictHigh ah sh next) := by
  unfold State.strictHigh
  split
  · exact hnext u h
  · split
    · exact .failed h _
    · exact hnext _ (h.warn (.inl rfl))

theorem wrapSize {next : State → State} (h : Parsing s u) (hnext : ∀ v, Parsing s v → WordEffect s (next v))
    (a : Asd) (c : ParseCause) : WordEffect s (u.wrapSize a c next) := by
  unfold State.wrapSize
  split
  · exact hnext u h
  · split
    · exact .failed h _
    · exact hnext _ (h.warn (.inr rfl))

theorem commit (h : Parsing s u) : WordEffect s u.commit := by
  unfold State.commit State.commitRow
  split
  · exact h.wait
  · split
    · exact .failed h _
    · exact (h.row ‹_›).wait

theorem slaveWraps (h : Parsing s u) (i : Nat) : WordEffect s (u.slaveWraps i) := by
  unfold State.slaveWraps
  split
  · exact h.wait
  · exact h.commit

theorem masterWraps (h : Parsing s u) (i : Nat) : WordEffect s (u.masterWraps i) := by
  unfold State.masterWraps
  split
  · exact h.wait
  · exact h.slaveWraps 0

theorem slavePorts (h : Parsing s u) (i : Nat) : WordEffect s (u.slavePorts i) := by
  unfold State.slavePorts
  split
  · exact h.wait
  · exact (h.wrapper (o := none) nofun).masterWraps 0

theorem recordWrap {a : Asd} {next : State → State} (h : Parsing s u)
    (ha : s.scan.pos.Aligned → WordAligned a.addr) (hnext : ∀ v, Parsing s v → WordEffect s (next v)) :
    WordEffect s (u.recordWrap a next) := by
  have hrecorded := h.wrapper (o := some a.addr) (fun hs wb hwb => by cases hwb; exact ha hs)
  unfold State.recordWrap
  dsimp only
  split
  · exact hnext u h
  · split
    · exact hnext _ hrecorded
    · exact hrecorded.strictHigh hnext _ _

theorem captureBridge {a : Asd} {next : State → State} (h : Parsing s u)
    (ha : s.scan.pos.Aligned → WordAligned a.addr) (hnext : ∀ v, Parsing s v → WordEffect s (next v)) :
    WordEffect s (u.captureBridge a next) := by
  unfold State.captureBridge
  split
  · split
    · exact .failed h _
    · exact hnext _ (h.bridge ‹_› ha)
  · exact hnext u h

/-- Step 6 ends: the secondary space is of window size (R210). -/
theorem endExtras (h : Parsing s u) (extras : Nat) (first : Option Asd) : WordEffect s (u.endExtras extras first) := by
  unfold State.endExtras
  cases first with
  | none => exact (h.secondary (o := none) nofun).slavePorts 1
  | some a =>
    dsimp only
    by_cases hc : extras = 1 ∧ a.size = Config.coreWindowSize
    · have hset := h.secondary (o := some a) (by rintro _ ⟨⟩; exact hc.2)
      simp only [if_pos hc]
      split
      · exact hset.slavePorts 1
      · exact hset.strictHigh (fun _ hv => hv.slavePorts 1) _ _
    · simp only [if_neg hc]
      exact (h.secondary (o := none) nofun).slavePorts 1

theorem asdFound {site : AsdSite} {a : Asd} (h : Parsing s u) (ha : s.scan.pos.Aligned → WordAligned a.addr) :
    WordEffect s (u.asdFound site a) := by
  cases site with
  | capture => exact h.router.wait
  | primary => exact (h.primary ha).strictHigh (fun _ hv => hv.wait) _ _
  | bridgeFirst => exact ((h.primary ha).identity (r := { u.scan with pri := a, br := true }) rfl).wait
  | bridgeMore => exact h.wait
  | extra n first => exact h.wait
  | slavePort i j => exact h.wait
  | masterWrap i => exact h.wrapSize (fun _ hv => hv.recordWrap ha (fun _ hw => hw.masterWraps (i + 1))) a _
  | slaveWrap i =>
    exact h.wrapSize (fun _ hv => hv.recordWrap ha (fun _ hw => hw.captureBridge ha
      (fun _ hx => hx.slaveWraps (i + 1)))) a _

theorem asdMissing (h : Parsing s u) (site : AsdSite) : WordEffect s (u.asdMissing site) := by
  cases site with
  | capture => exact h.wait
  | primary => exact h.wait
  | bridgeFirst => exact .failed h _
  | bridgeMore => exact h.wait
  | extra n first => exact h.endExtras n first
  | slavePort i j =>
    simp only [State.asdMissing]
    split
    · exact .failed h _
    · exact h.slavePorts (i + 1)
  | masterWrap i => exact .failed h _
  | slaveWrap i => exact .failed h _

theorem unitDone {site : AsdSite} {addr size : Addr} (h : Parsing s u)
    (ha : s.scan.pos.Aligned → WordAligned addr) : WordEffect s (u.unitDone site addr size) := h.asdFound ha

theorem unitAddr {site : AsdSite} {addr : Addr} {sz : BitVec 2} (h : Parsing s u)
    (ha : s.scan.pos.Aligned → WordAligned addr) : WordEffect s (u.unitAddr site addr sz) := by
  unfold State.unitAddr
  split
  · exact .going (h.goTo ha)
  · exact h.unitDone ha

end Parsing

/-! ## One word -/

section Words

variable {s t : State}

theorem wordEffect_parseFail (c : ParseCause) : WordEffect s (s.parseFail c) := .failed .start c

theorem wordEffect_skip : WordEffect s s.skip := .going .start

theorem wordEffect_reject (site : AsdSite) : WordEffect s (s.reject site) := Parsing.pushedBack.asdMissing site

theorem wordEffect_asdHead (st : AsdType) (addr : BitVec 20) (sp : BitVec 4) (sz : BitVec 2) (ag32 : BitVec 1)
    (site : AsdSite) : WordEffect s (s.asdHead st addr sp sz ag32 site) := by
  unfold State.asdHead
  split
  · split
    · exact Parsing.start.wait (lowHalf_aligned addr)
    · exact Parsing.start.unitAddr (fun _ => hiLo_aligned (lowHalf_aligned addr) 0)
  · exact wordEffect_reject site

theorem wordEffect_classify {u : State} (h : Parsing s u) : WordEffect s u.classify := by
  unfold State.classify
  split
  · exact h.wait
  · split
    · split <;> exact h.wait
    · split
      · exact (h.identity (r := { u.scan with br := false }) rfl).wait
      · exact h.wait

theorem wordEffect_takeCib (w : Word) : WordEffect s (s.takeCib w) := by
  unfold State.takeCib
  split
  · exact wordEffect_classify (Parsing.start.identity rfl)
  · exact wordEffect_parseFail _

theorem wordEffect_takeMpd (left : Nat) : WordEffect s (s.takeMpd left) := by
  unfold State.takeMpd
  split
  · exact (Parsing.start.identity (r := { s.scan with br := false }) rfl).wait
  · exact Parsing.start.wait

theorem wordEffect_takeAddrHi {site : AsdSite} {lo : Word} {sz : BitVec 2} (hpos : s.scan.pos = .addrHi site lo sz)
    (w : Word) : WordEffect s (s.takeAddrHi site lo sz w) :=
  Parsing.start.unitAddr (fun h => by rw [hpos] at h; exact hiLo_aligned h w)

theorem wordEffect_takeSzd {site : AsdSite} {addr : Addr} (hpos : s.scan.pos = .szd site addr) (w : Word) :
    WordEffect s (s.takeSzd site addr w) := by
  have ha : s.scan.pos.Aligned → WordAligned addr := fun h => by rw [hpos] at h; exact h
  unfold State.takeSzd
  split
  · exact .going (Parsing.start.goTo ha)
  · exact Parsing.start.unitDone ha

theorem wordEffect_takeSizeHi {site : AsdSite} {addr : Addr} {lo : Word} (hpos : s.scan.pos = .sizeHi site addr lo)
    (w : Word) : WordEffect s (s.takeSizeHi site addr lo w) :=
  Parsing.start.unitDone (fun h => by rw [hpos] at h; exact h)

/-- A word of a tagged kind at whatever position the reader stands. -/
theorem wordEffect_tagged {w : Word} {onIdentity : State → State} {onMpd : Nat → State → State}
    {onAsd : AsdSite → State → State} (h : taggedWord w onIdentity onMpd onAsd s = .next t)
    (hidentity : s.scan.pos = .identity → WordEffect s (onIdentity s))
    (hmpd : ∀ left, WordEffect s (onMpd left s)) (hasd : ∀ site, WordEffect s (onAsd site s)) :
    s.busy = true ∧ WordEffect s t := by
  unfold taggedWord at h
  split at h
  case isTrue hbusy =>
    refine ⟨hbusy, ?_⟩
    cases h
    split
    case h_1 hpos => exact hidentity hpos
    case h_2 => exact wordEffect_takeCib w
    case h_3 => exact hmpd _
    case h_4 => exact hasd _
    case h_5 hpos => exact wordEffect_takeAddrHi hpos w
    case h_6 hpos => exact wordEffect_takeSzd hpos w
    case h_7 hpos => exact wordEffect_takeSizeHi hpos w
  case isFalse => cases h

/-- A word of a kind read by position. -/
theorem wordEffect_positional {w : Word} (h : positionalWord w s = .next t) : s.busy = true ∧ WordEffect s t := by
  unfold positionalWord at h
  split at h
  case isTrue hbusy =>
    refine ⟨hbusy, ?_⟩
    split at h
    case h_4 => cases h; exact wordEffect_takeCib w
    case h_5 hpos => cases h; exact wordEffect_takeAddrHi hpos w
    case h_6 hpos => cases h; exact wordEffect_takeSzd hpos w
    case h_7 hpos => cases h; exact wordEffect_takeSizeHi hpos w
    all_goals cases h
  case isFalse => cases h

/-- A valid word that is neither MPD nor ASD, whatever it is at the identity search. -/
theorem wordEffect_plain {w : Word} {onIdentity : State → State}
    (h : taggedWord w onIdentity State.notMpd State.reject s = .next t)
    (hidentity : s.scan.pos = .identity → WordEffect s (onIdentity s)) : s.busy = true ∧ WordEffect s t :=
  wordEffect_tagged h hidentity (fun _ => wordEffect_parseFail _) wordEffect_reject

theorem wordEffect_asd {w : Word} {st : AsdType} {addr : BitVec 20} {sp : BitVec 4} {sz : BitVec 2}
    {ag32 : BitVec 1} (h : taggedWord w State.skip State.notMpd (State.asdHead st addr sp sz ag32) s = .next t) :
    s.busy = true ∧ WordEffect s t :=
  wordEffect_tagged h (fun _ => wordEffect_skip) (fun _ => wordEffect_parseFail _)
    (wordEffect_asdHead st addr sp sz ag32)

/-- Every descriptor word has one of the effects of `WordEffect`, in a scan in progress. -/
theorem exec_wordEffect {i : Instr} (hpos : i.position ≠ none) (h : exec i s = .next t) :
    s.busy = true ∧ WordEffect s t := by
  cases i with
  | cia mfg cid ccl =>
    unfold exec execCia at h
    exact wordEffect_plain h (fun _ => (Parsing.start.identity (r := { s.scan with cia := ciaWord mfg cid ccl })
      rfl).wait)
  | cib rev nsw nmw nsp nmp valid => exact wordEffect_positional h
  | mpd rsv mui mp => exact wordEffect_tagged h (fun _ => wordEffect_skip) wordEffect_takeMpd wordEffect_reject
  | asdSlave addr sp sz ag32 => exact wordEffect_asd h
  | asdBridge addr sp sz ag32 => exact wordEffect_asd h
  | asdSwrap addr sp sz ag32 => exact wordEffect_asd h
  | asdMwrap addr sp sz ag32 => exact wordEffect_asd h
  | addrHi w => exact wordEffect_positional h
  | szd size ignHi sg32 ignLo => exact wordEffect_positional h
  | sizeHi w => exact wordEffect_positional h
  | endOnes => exact wordEffect_plain h .done
  | endRom => exact wordEffect_plain h .done
  | invalid rest =>
    exact wordEffect_tagged h (fun _ => wordEffect_skip) (fun _ => wordEffect_skip) (fun _ => wordEffect_skip)
  | reserved011 rest => exact wordEffect_plain h (fun _ => wordEffect_skip)
  | reserved100 rest => exact wordEffect_plain h (fun _ => wordEffect_skip)
  | reserved101 rest => exact wordEffect_plain h (fun _ => wordEffect_skip)
  | reserved111 rest => exact wordEffect_plain h (fun _ => wordEffect_skip)
  | attach | detach | scan | coreCount | coreId | coreRev | corePrimaryAddr | corePrimarySize | coreSecondaryAddr
  | coreSecondarySize | coreWrapperAddr | oobRouterAddr | switchTo | currentFocus | accessRegister | disable
  | reset | isUp | cflags | sflags | armTimeouts | clearTimeout => exact absurd rfl hpos

end Words

/-! ## What a word leaves alone -/

namespace Parsing

variable {s u : State}

/-- But for the scan's registers, the bridge set, the router address and the log, nothing is changed. -/
theorem frame (h : Parsing s u) :
    { u with scan := s.scan, bws := s.bws, oob := s.oob, log := s.log } = s := by
  induction h with
  | start | pushedBack => rfl
  | _ => assumption

/-- The stream stays where it is and as long as it is. -/
theorem stream (h : Parsing s u) : u.scan.lim = s.scan.lim ∧ u.scan.eromBase = s.scan.eromBase := by
  induction h with
  | start => exact ⟨rfl, rfl⟩
  | pushedBack => exact ⟨rfl, rfl⟩
  | identity h hr ih => rw [hr]; exact ih
  | _ => assumption

/-- The cursor is where the reader left it, or pushed back (R156). -/
theorem cursor (h : Parsing s u) : u.scan.cur = s.scan.cur ∨ u.scan.cur = s.scan.cur - 1#32 := by
  induction h with
  | start => exact .inl rfl
  | pushedBack => exact .inr rfl
  | identity h hr ih => rw [hr]; exact ih
  | _ => assumption

/-- Nothing but warnings is logged. -/
theorem warnings (h : Parsing s u) :
    ∃ ws, u.log = s.log ++ ws ∧ ∀ e ∈ ws, e = .warnHigh ∨ e = .warnWrapSize := by
  induction h with
  | start => exact ⟨[], (List.append_nil _).symm, nofun⟩
  | pushedBack => exact ⟨[], (List.append_nil _).symm, nofun⟩
  | @warn u e h he ih =>
    obtain ⟨ws, hlog, hws⟩ := ih
    refine ⟨ws ++ [e], by rw [logEntry_log, hlog, List.append_assoc], ?_⟩
    intro e' he'
    rcases List.mem_append.mp he' with he' | he'
    · exact hws e' he'
    · rw [List.mem_singleton.mp he']
      exact he
  | _ => assumption

end Parsing

/-- The epilogue of a successful scan is a focus switch (R222). -/
theorem scanDone_acts (s : State) :
    ∃ es, Acts { s with table := s.scan.rows, scanStatus := .ok, scan := { s.scan with rows := [] }
                        busy := false, response := answerStatus .ok } s.scanDone es [] ∧
      MaskFree es ∧ s.scanDone.irqSaved = s.irqSaved ∧ s.scanDone.bus = s.bus := by
  obtain ⟨es, ha, he, hirq⟩ := switchTo_acts 0#32
    { s with table := s.scan.rows, scanStatus := .ok, scan := { s.scan with rows := [] }
             busy := false, response := answerStatus .ok }
  exact ⟨es, ha, .of_isSwitch he, hirq, switchTo_bus _ _⟩

/-- What a word leaves alone whether or not it ends the scan (R30, R33). -/
structure WordFrame (s t : State) : Prop where
  attached : t.attached = s.attached
  cfg : t.cfg = s.cfg
  params : t.params = s.params
  bus : t.bus = s.bus
  irqSaved : t.irqSaved = s.irqSaved
  commands : t.commands = s.commands
  traceMark : t.traceMark = s.traceMark
  warnings : ∃ ws, t.log = s.log ++ ws ∧ ∀ e ∈ ws, e = .warnHigh ∨ e = .warnWrapSize

theorem Parsing.wordFrame {s u : State} (h : Parsing s u) : WordFrame s u where
  attached := (congrArg State.attached h.frame :)
  cfg := (congrArg State.cfg h.frame :)
  params := (congrArg State.params h.frame :)
  bus := (congrArg State.bus h.frame :)
  irqSaved := (congrArg State.irqSaved h.frame :)
  commands := (congrArg State.commands h.frame :)
  traceMark := (congrArg State.traceMark h.frame :)
  warnings := h.warnings

theorem WordEffect.wordFrame {s t : State} (h : WordEffect s t) : WordFrame s t := by
  cases h with
  | going h => exact h.wordFrame
  | failed h c => exact { h.wordFrame with }
  | done hpos =>
    obtain ⟨es, ha, -, hirq, hbus⟩ := scanDone_acts s
    exact ⟨ha.attached, ha.cfg, ha.params, hbus, hirq, ha.commands, ha.traceMark, [], ha.log, nofun⟩

/-- A word after which the scan goes on ended nothing. -/
theorem WordEffect.going_of_busy {s t : State} (h : WordEffect s t) (hbusy : t.busy = true) : Parsing s t := by
  cases h with
  | going h => exact h
  | failed h c => cases hbusy
  | done hpos =>
    obtain ⟨es, ha, -⟩ := scanDone_acts s
    cases ha.busy.symm.trans hbusy

/-- Settles O26: a word's effect is a parse (`Parsing.frame`), which the end of the scan adds little to. -/
theorem descriptorWordFrame : Obligations.DescriptorWordFrame := by
  intro s i t hpos h
  obtain ⟨-, heffect⟩ := exec_wordEffect hpos h
  have hf := heffect.wordFrame
  refine ⟨⟨hf.attached, hf.cfg, hf.params, hf.bus, hf.irqSaved, hf.commands, hf.traceMark,
    fun a => by rw [hf.bus], hf.warnings⟩, fun hbusy => ?_⟩
  have hparse := heffect.going_of_busy hbusy
  have hsame := hparse.frame
  exact ⟨(congrArg State.trace hsame :), (congrArg State.table hsame :), (congrArg State.focus hsame :),
    (congrArg State.mapReg hsame :), (congrArg State.mapWrap hsame :), (congrArg State.winReg hsame :),
    (congrArg State.winWrap hsame :), (congrArg State.scanStatus hsame :), (congrArg State.response hsame :),
    hparse.stream⟩

end Sys2Proof.Machine

/-! PROOFS. How a SCAN starts (10_state.md R57, 41_topology_scan.md R194 to R196, R230 to R235), and ATTACH and
DETACH (R190 to R192): what each does, said once. -/

namespace Sys2Proof.Machine

/-! ## ATTACH and DETACH -/

/-- The operands of an ATTACH are in range (R190). -/
def AttachInRange (t g w n : Word) : Prop :=
  t.toNat ≤ 2 ∧ g.toNat ≤ 1 ∧ (t ≠ 0#32 → w = 1#32 ∨ w = 2#32) ∧ n.toNat ≤ 2 ∧ (t = 0#32 → n = 0#32)

theorem transportOf_of_le {t : Word} (h : t.toNat ≤ 2) :
    transportOf t = some (if t = 0#32 then .flat else if t = 1#32 then .windowed else .legacyWindowed) := by
  unfold transportOf
  split
  · rfl
  · split
    · rfl
    · rw [if_pos (by bv_omega)]

theorem busGenOf_of_le {g : Word} (h : g.toNat ≤ 1) :
    busGenOf g = some (if g = 0#32 then .advanced else .legacy) := by
  unfold busGenOf
  split
  · rfl
  · rw [if_pos (by bv_omega)]

theorem transportOf_some {t : Word} {x : Transport} (h : transportOf t = some x) :
    t.toNat ≤ 2 ∧ (x = .flat ↔ t = 0#32) := by
  unfold transportOf at h
  split at h
  · cases h; simp_all
  · split at h
    · cases h; simp_all
    · split at h
      · cases h; simp_all
      · cases h

theorem busGenOf_some {g : Word} {x : BusGen} (h : busGenOf g = some x) : g.toNat ≤ 1 := by
  unfold busGenOf at h
  split at h
  · simp_all
  · split at h
    · simp_all
    · cases h

/-- Operands in range: the configuration that ATTACH latches. -/
theorem attachCfg_inRange {t g w c r p n : Word} {fast : List (Word × Word)} (hlen : fast.length = n.toNat)
    (h : AttachInRange t g w n) :
    attachCfg t g w c r p n fast = some {
      transport := if t = 0#32 then .flat else if t = 1#32 then .windowed else .legacyWindowed
      busGen := if g = 0#32 then .advanced else .legacy
      windowCount := if t = 0#32 then 0 else w.toNat
      fastPath := fast
      family := Config.chipFamily c r p } := by
  obtain ⟨ht, hg, hw, hn, hflat⟩ := h
  unfold attachCfg
  rw [transportOf_of_le ht, busGenOf_of_le hg]
  by_cases h0 : t = 0#32
  · have hnil : fast = [] := List.eq_nil_of_length_eq_zero (by rw [hlen, hflat h0]; rfl)
    simp [h0, hflat h0, hnil]
  · have htake : fast.take n.toNat = fast := by rw [← hlen, List.take_length]
    by_cases h1 : t = 1#32 <;> simp [h0, h1, hw h0, hn, htake]

/-- A configuration is latched from operands in range alone, and is a legal one (R44, R190). -/
theorem attachCfg_some {t g w c r p n : Word} {fast : List (Word × Word)} {cfg : Cfg}
    (h : attachCfg t g w c r p n fast = some cfg) : AttachInRange t g w n ∧ cfg.legal := by
  unfold attachCfg at h
  split at h
  case h_1 gen ht hg =>
    obtain ⟨hle, hflat⟩ := transportOf_some ht
    have ht0 : t = 0#32 := hflat.mp rfl
    split at h
    · cases h
      rename_i hn
      exact ⟨⟨hle, busGenOf_some hg, fun hne => absurd ht0 hne, by simp [hn], fun _ => hn⟩,
        fun _ => ⟨rfl, rfl⟩, fun hne => absurd rfl hne, by simp⟩
    · cases h
  case h_2 x gen hne hx hg =>
    obtain ⟨hle, hflat⟩ := transportOf_some hx
    split at h
    · cases h
      rename_i hrange
      obtain ⟨hw, hn⟩ := hrange
      refine ⟨⟨hle, busGenOf_some hg, fun _ => hw, hn, fun h0 => absurd (hflat.mpr h0) hne⟩,
        fun hc => absurd hc hne, fun _ => ?_, ?_⟩
      · rcases hw with rfl | rfl
        · exact .inl rfl
        · exact .inr rfl
      · simp only [List.length_take]
        omega
    · cases h
  case h_3 => cases h

/-- ATTACH of a detached block, its operands in range. -/
theorem exec_attach_ok {s : State} (hbusy : s.busy = false) (hatt : s.attached = false)
    {t g w c r p n : Word} {fast : List (Word × Word)} {cfg : Cfg} (h : attachCfg t g w c r p n fast = some cfg) :
    exec (.attach t g w c r p n fast) s = .next ((s.begin.attachReset cfg).respond (answerStatus .ok)) := by
  simp [exec, execAttach, hbusy, hatt, h]

/-- ATTACH of a detached block, an operand out of range. -/
theorem exec_attach_rangeError {s : State} (hbusy : s.busy = false) (hatt : s.attached = false)
    {t g w c r p n : Word} {fast : List (Word × Word)} (h : attachCfg t g w c r p n fast = none) :
    exec (.attach t g w c r p n fast) s = .next (s.answers [2#32]) := by
  simp [exec, execAttach, hbusy, hatt, h, begin_respond, answerStatus, Status.code]

/-- Settles O9, by the range of the operands (`attachCfg_inRange`, `attachCfg_some`). -/
theorem attachRule : Obligations.AttachRule := by
  intro s t g w c r p n fast hbusy hlen
  refine ⟨fun hatt => ?_, fun hatt hrange => ?_, fun hatt hrange => ?_⟩
  · unfold exec execAttach
    simp [hbusy, hatt]
  · exact ⟨_, exec_attach_ok hbusy hatt (attachCfg_inRange hlen hrange), rfl, rfl, rfl, rfl, rfl, rfl, rfl, rfl, rfl,
      cacheGet_nil, cacheGet_nil, rfl, rfl, rfl, rfl, rfl, rfl, rfl, rfl, rfl, rfl, rfl, rfl, rfl⟩
  · have hnone : attachCfg t g w c r p n fast = none := by
      cases hcfg : attachCfg t g w c r p n fast with
      | none => rfl
      | some cfg => exact absurd (attachCfg_some hcfg).1 hrange
    exact exec_attach_rangeError hbusy hatt hnone

/-- Settles O10: DETACH is a command with one body. -/
theorem detachRule : Obligations.DetachRule := by
  intro s hready
  exact command_ready (fun t => (answerStatus .ok, t.detached)) s hready

/-! ## SCAN on an Advanced bus: the stream is located (R196) -/

/-- The first event of a SCAN on an Advanced bus: the bootstrap core is mapped, or REG set to it. -/
def State.bootEvent (s : State) : Event :=
  if s.flat then .map Config.bootCoreBase Config.coreWindowSize else .winSet .reg Config.bootCoreBase

/-- Where the enumeration pointer is read. -/
def eromPtrAddr : Addr := Config.bootCoreBase + Config.eromPtrOffset

/-- The enumeration pointer, as the bus answers it after that event. -/
def State.eromPtr (s : State) : Word := { s with trace := s.trace ++ [s.bootEvent] }.busAnswer eromPtrAddr

/-- The event that opens the stream at `p`. -/
def State.openEvent (s : State) (p : Word) : Event :=
  if s.flat then .map (zext64 p) (4#64 * zext64 Config.eromLimitWords) else .winSet .reg (zext64 p)

theorem probe_map (pa size : Addr) (s : State) : Probe s (s.map pa size) [.map pa size] s.winReg :=
  (body_map pa size s).probe

theorem probe_memRead (path : AccessPath) (pa : Addr) (s : State) :
    Probe s (s.memRead path pa).2 [.memRead path pa (s.busAnswer pa)] s.winReg := (body_memRead path pa s).probe

theorem probe_winSet (base : Addr) (s : State) : Probe s (s.winSet .reg base) [.winSet .reg base] base :=
  ⟨acts_winSet .reg base s, rfl, rfl, rfl, rfl, rfl, rfl⟩

/-- Locating the stream: after the pointer read the stream is opened where it points, if that is a multiple of 4;
else the scan fails with no further access (R196). -/
theorem locateStream_spec (s : State) :
    (field s.eromPtr 0 2 = 0#2 → ∃ u, s.locateStream = u.openStream s.eromPtr ∧
      u.bus.mem = s.bus.mem ∧
      Probe s u [s.bootEvent, .memRead .plain eromPtrAddr s.eromPtr, s.openEvent s.eromPtr]
        (if s.flat then s.winReg else zext64 s.eromPtr)) ∧
    (field s.eromPtr 0 2 ≠ 0#2 → ∃ u, s.locateStream = u.parseFail .eromPtr ∧
      u.bus.mem = s.bus.mem ∧
      Probe s u [s.bootEvent, .memRead .plain eromPtrAddr s.eromPtr]
        (if s.flat then s.winReg else Config.bootCoreBase)) := by
  unfold State.locateStream State.eromPtr State.openEvent State.bootEvent
  cases hf : s.flat
  · have hread := (probe_winSet Config.bootCoreBase s).trans (probe_memRead .plain eromPtrAddr _)
    exact ⟨fun h => ⟨_, if_pos h, rfl, hread.trans (probe_winSet _ _)⟩,
      fun h => ⟨_, if_neg h, rfl, hread⟩⟩
  · have hread := (probe_map Config.bootCoreBase Config.coreWindowSize s).trans (probe_memRead .plain eromPtrAddr _)
    exact ⟨fun h => ⟨_, if_pos h, rfl, hread.trans (probe_map _ _ _)⟩,
      fun h => ⟨_, if_neg h, rfl, hread⟩⟩

theorem exec_scan_advanced {s : State} (hready : s.ready) (hgen : s.cfg.busGen = .advanced) :
    exec .scan s = .next s.begin.scanPrologue.locateStream := by
  obtain ⟨hbusy, hatt⟩ := hready
  unfold exec execScan State.scanStart
  simp [hbusy, hatt, hgen]

/-- What SCAN's own step leaves on an Advanced bus, whether it opens the stream or fails (R195). -/
structure ScanBegun (s t : State) : Prop where
  table : t.table = []
  bws : t.bws = []
  oob : t.oob = none
  focus : t.focus = Focus.unset
  mapReg : t.mapReg = []
  mapWrap : t.mapWrap = []
  attached : t.attached = s.attached
  cfg : t.cfg = s.cfg
  params : t.params = s.params
  commands : t.commands = s.commands
  log : t.log = s.log
  irqSaved : t.irqSaved = s.irqSaved
  winWrap : t.winWrap = s.winWrap
  mem : t.bus.mem = s.bus.mem
  device : t.bus.device = s.bus.device
  traceMark : t.traceMark = s.trace.length

/-- A probe after the prologue. -/
theorem Probe.scanBegun {s u : State} {es : List Event} {reg : Addr} (h : Probe s.begin.scanPrologue u es reg)
    (hmem : u.bus.mem = s.bus.mem) : ScanBegun s u :=
  ⟨h.table, h.bws, h.oob, h.focus, h.mapReg, h.mapWrap, h.attached, h.cfg, h.params, h.commands,
    h.log.trans (List.append_nil _), h.irqSaved, h.wrap, hmem, h.device, h.traceMark⟩

/-- Settles O12: SCAN's own step is the prologue and `locateStream_spec`. -/
theorem scanLocatesStream : Obligations.ScanLocatesStream := by
  intro s hready hgen first pa p
  have hboot : s.begin.scanPrologue.bootEvent = first := by simp only [State.bootEvent, flat_iff]; rfl
  have hptr : s.begin.scanPrologue.eromPtr = p := by unfold State.eromPtr; rw [hboot]; rfl
  have hopenEvent : s.begin.scanPrologue.openEvent p =
      if s.cfg.transport = .flat then .map (zext64 p) 0xE00#64 else .winSet .reg (zext64 p) := by
    simp only [State.openEvent, flat_iff]; rfl
  obtain ⟨hopen, hfail⟩ := locateStream_spec s.begin.scanPrologue
  rw [hptr] at hopen hfail
  rw [hboot] at hopen hfail
  rw [hopenEvent] at hopen
  simp only [flat_iff] at hopen hfail
  rw [exec_scan_advanced hready hgen]
  by_cases hp : field p 0 2 = 0#2
  · obtain ⟨u, hu, hmem, hprobe⟩ := hopen hp
    have hb := hprobe.scanBegun hmem
    rw [hu]
    refine ⟨_, rfl, hb.table, hb.bws, hb.oob, by simp [hb.focus, Focus.unset], by simp [hb.focus, Focus.unset],
      by simp [hb.focus, Focus.unset], by simp [hb.mapReg], by simp [hb.mapWrap], hb.attached.trans hready.2, hb.cfg,
      hb.params, hb.commands, hb.log, hb.irqSaved, hb.winWrap, hb.mem, hb.device, hb.traceMark, fun _ => ?_,
      fun hne => absurd hp hne⟩
    exact ⟨hprobe.busy, hprobe.scanStatus, hprobe.response, rfl, rfl, rfl, rfl, rfl, hprobe.trace, hprobe.reg⟩
  · obtain ⟨u, hu, hmem, hprobe⟩ := hfail hp
    have hb := hprobe.scanBegun hmem
    rw [hu]
    refine ⟨_, rfl, rfl, rfl, rfl, rfl, rfl, rfl, by simp [hb.mapReg], by simp [hb.mapWrap],
      hb.attached.trans hready.2, hb.cfg, hb.params, hb.commands, hb.log, hb.irqSaved, hb.winWrap, hb.mem, hb.device,
      hb.traceMark, fun h0 => absurd h0 hp, fun _ => ?_⟩
    exact ⟨rfl, ⟨_, rfl⟩, rfl, hprobe.trace, hprobe.reg⟩

/-! ## SCAN on the legacy bus: the walk (R233) -/

/-- Rows that a table may hold: at most `n`, each at its own index, with paired secondary data and aligned
addresses (R36, R37, R75). -/
structure RowsSound (n : Nat) (rows : List CoreDescriptor) : Prop where
  bounded : rows.length ≤ n
  dense : RowsDense rows
  secondary : ∀ d ∈ rows, d.SecondaryOk
  aligned : ∀ d ∈ rows, d.Aligned

theorem RowsSound.nil (n : Nat) : RowsSound n [] := ⟨n.zero_le, nofun, nofun, nofun⟩

/-- One row more, while there is room. -/
theorem RowsSound.append {n : Nat} {rows : List CoreDescriptor} (h : RowsSound n rows) {d : CoreDescriptor}
    (hroom : rows.length ≠ n) (hindex : d.coreIndex = BitVec.ofNat 32 rows.length) (hsec : d.SecondaryOk)
    (hal : d.Aligned) : RowsSound n (rows ++ [d]) where
  bounded := by
    have := h.bounded
    simp only [List.length_append, List.length_singleton]
    omega
  dense k d' hk := by
    rw [List.getElem?_append] at hk
    split at hk
    · exact h.dense k d' hk
    · rw [List.getElem?_singleton] at hk
      split at hk
      · cases hk
        rw [hindex]
        congr 1
        omega
      · cases hk
  secondary d' hd' := by
    rcases List.mem_append.mp hd' with hd' | hd'
    · exact h.secondary d' hd'
    · rw [List.mem_singleton.mp hd']; exact hsec
  aligned d' hd' := by
    rcases List.mem_append.mp hd' with hd' | hd'
    · exact h.aligned d' hd'
    · rw [List.mem_singleton.mp hd']; exact hal

/-- A slot's identification masks nothing: it reads, maps and sets REG. -/
theorem IsIdentify.maskFree {flat : Bool} {slot : Addr} {p : SlotProc} {reg : Addr} {es : List Event}
    {r : Except ParseCause LegacyIdent} {reg' : Addr} (h : IsIdentify flat slot p reg es r reg') : MaskFree es := by
  induction p generalizing reg es with
  | done id => obtain ⟨rfl, -⟩ := h; exact maskFree_nil
  | raise c => obtain ⟨rfl, -⟩ := h; exact maskFree_nil
  | read again page word next ih =>
    obtain ⟨v, rest, rfl, hrest⟩ := h
    rw [maskFree_append, maskFree_cons]
    refine ⟨?_, rfl, ih v hrest⟩
    split <;> simp
  | map base size next ih =>
    obtain ⟨rest, rfl, hrest⟩ := h
    exact (maskFree_cons _ _).mpr ⟨rfl, ih hrest⟩

/-- What a part of the walk keeps: sound rows, and the mask. -/
def WalkKeeps (n : Nat) (rows : List CoreDescriptor) (es : List Event) (e : WalkEnd) : Prop :=
  (RowsSound n rows → RowsSound n e.rows) ∧ MaskFree es

theorem rowOfSlot_sound {p : Params} {f : Family} {rows : List CoreDescriptor} {slot : Addr} {id : LegacyIdent}
    (h : RowsSound p.maxCores rows) (hroom : rows.length ≠ p.maxCores) (hslot : WordAligned slot) :
    RowsSound p.maxCores (rows ++ [rowOfSlot p f rows.length slot id]) :=
  h.append hroom rfl (.inl ⟨rfl, rfl⟩) ⟨hslot, nofun⟩

/-- The slots of an aligned bus, the sub-buses keeping as much. -/
theorem IsSlots.keeps {p : Params} {f : Family} {flat : Bool}
    {sub : LegacyIdent → Addr → List CoreDescriptor → List Event → WalkEnd → Prop} {b : Addr} (hb : WordAligned b)
    (hsub : ∀ id reg rows es e, sub id reg rows es e → WalkKeeps p.maxCores rows es e) {left k : Nat} {reg : Addr}
    {rows : List CoreDescriptor} {es : List Event} {e : WalkEnd} (h : IsSlots p f flat sub b left k reg rows es e) :
    WalkKeeps p.maxCores rows es e := by
  induction left generalizing k reg rows es with
  | zero =>
    obtain ⟨rfl, rfl⟩ := h
    exact ⟨id, maskFree_nil⟩
  | succ left ih =>
    obtain ⟨es1, r, reg1, es2, hid, rfl, hrest⟩ := h
    have h1 := hid.maskFree
    cases r with
    | error c =>
      obtain ⟨rfl, rfl⟩ := hrest
      exact ⟨id, by simpa using h1⟩
    | ok id =>
      dsimp only at hrest
      split at hrest
      · obtain ⟨es3, es4, e3, h3, rfl, hend⟩ := hrest
        obtain ⟨hrows3, hmask3⟩ := hsub _ _ _ _ _ h3
        split at hend
        · obtain ⟨rfl, rfl⟩ := hend
          exact ⟨hrows3, by simp [h1, hmask3]⟩
        · obtain ⟨hrows4, hmask4⟩ := ih hend
          exact ⟨fun h => hrows4 (hrows3 h), by simp [h1, hmask3, hmask4]⟩
      · split at hrest
        · obtain ⟨rfl, rfl⟩ := hrest
          exact ⟨fun h => h, by simpa using h1⟩
        · rename_i hroom
          obtain ⟨hrows, hmask⟩ := ih hrest
          exact ⟨fun h => hrows (rowOfSlot_sound h hroom (slotAddr_aligned hb k)), by simp [h1, hmask]⟩

theorem IsSubWalk.keeps {p : Params} {f : Family} {flat : Bool} {id : LegacyIdent} {reg : Addr}
    {rows : List CoreDescriptor} {es : List Event} {e : WalkEnd} (h : IsSubWalk p f flat id reg rows es e) :
    WalkKeeps p.maxCores rows es e := by
  refine IsSlots.keeps (wordAddr_aligned _) (fun _ _ _ _ _ hdeep => ?_) h
  obtain ⟨rfl, rfl⟩ := hdeep
  exact ⟨fun h => h, maskFree_nil⟩

theorem IsMainWalk.keeps {p : Params} {f : Family} {flat : Bool} {count : Nat} {reg : Addr} {es : List Event}
    {e : WalkEnd} (h : IsMainWalk p f flat count reg es e) : WalkKeeps p.maxCores [] es e :=
  IsSlots.keeps legacyBase_aligned (fun _ _ _ _ _ => IsSubWalk.keeps) h

/-- The legacy scan stages sound rows with no other effect than a probe's, and ends in success or failure. -/
theorem legacyScan_spec (s : State) (hrows : s.scan.rows = []) :
    ∃ rows u es reg, RowsSound s.params.maxCores rows ∧ Probe (s.withRows rows) u es reg ∧ MaskFree es ∧
      (s.legacyScan = u.scanDone ∨ ∃ c, s.legacyScan = u.parseFail c) := by
  have hselect := selectPage_probe Config.legacyBase true s
  have hread := hselect.trans (probe_memRead .plain
    ((s.selectPage Config.legacyBase true).pagePa Config.legacyBase Config.legacyIdWord) _)
  obtain ⟨es, e, ⟨hwalk, hresult⟩, hmain⟩ := mainWalk_spec (legacyCount s.cfg.family
    ((s.selectPage Config.legacyBase true).memRead .plain
      ((s.selectPage Config.legacyBase true).pagePa Config.legacyBase Config.legacyIdWord)).1).toNat _
    (by rw [hread.scan, hrows])
  obtain ⟨hsound, hmask⟩ := hmain.keeps
  rw [hread.params] at hsound
  refine ⟨e.rows, _, _, _, hsound (.nil _), (hread.withRows e.rows).trans hwalk, ?_, ?_⟩
  · rw [maskFree_append, maskFree_append]
    refine ⟨⟨?_, by simp⟩, hmask⟩
    split <;> simp
  · unfold State.legacyScan
    dsimp only
    split
    · exact .inl rfl
    · exact .inr ⟨_, rfl⟩

end Sys2Proof.Machine

/-! PROOFS. One step, said once: with a SCAN in progress it reads a word and has one of the effects of `WordEffect`,
else it waits or runs a command (`CommandRun`). From this, the interrupt mask is restored in every step (10_state.md
R56). -/

namespace Sys2Proof.Machine

/-! ## What a step can do -/

/-- What a command that answers `t` did in `s`. -/
inductive CommandRun (s : State) : State → Prop
  | attached {cfg : Cfg} (hbusy : s.busy = false) (hcfg : cfg.legal) :
      CommandRun s ((s.begin.attachReset cfg).respond (answerStatus .ok))
  /-- an ATTACH out of range -/
  | notAttached (hbusy : s.busy = false) : CommandRun s (s.answers [2#32])
  | detached (hready : s.ready) : CommandRun s (s.begin.detached.respond (answerStatus .ok))
  | scan (hready : s.ready) : CommandRun s s.begin.scanStart
  | other {t : State} (h : Commanded s t) : CommandRun s t

section Steps

variable {s t : State}

theorem commandRun_attach {transport busGen windowCount chipId chipRev package fastCount : Word}
    {fast : List (Word × Word)}
    (h : execAttach transport busGen windowCount chipId chipRev package fastCount fast s = .next t) :
    CommandRun s t := by
  unfold execAttach at h
  split at h
  · cases h
  · rename_i hbusy
    rw [Bool.not_eq_true] at hbusy
    split at h
    · cases h
    · cases h
      split
      · exact .attached hbusy (attachCfg_some ‹_›).2
      · exact .notAttached hbusy

theorem commandRun_scan (h : execScan s = .next t) : CommandRun s t := by
  unfold execScan at h
  split at h
  · cases h
  · rename_i hbusy
    split at h
    · rename_i hatt
      cases h
      exact .scan ⟨by simpa using hbusy, hatt⟩
    · cases h

theorem commandRun_detach (h : execDetach s = .next t) : CommandRun s t := by
  obtain ⟨hready, rfl⟩ := command_next h
  exact .detached hready

theorem exec_commandRun {i : Instr} (hpos : i.position = none) (h : exec i s = .next t) : CommandRun s t := by
  by_cases hscan : i = .scan
  · subst hscan
    exact commandRun_scan h
  · by_cases hdetach : i = .detach
    · subst hdetach
      exact commandRun_detach h
    · cases hattach : isAttach i
      · exact .other (exec_commanded hpos hscan hdetach hattach h)
      · cases i with
        | attach => exact commandRun_attach h
        | _ => cases hattach

theorem decodeAsd_position (w : Word) : (decodeAsd w).position ≠ none := by
  unfold decodeAsd
  split_ifs <;> simp [Instr.position]

theorem decodeTagged_position (w : Word) : (decodeTagged w).position ≠ none := by
  unfold decodeTagged
  split_ifs
  · nofun
  · nofun
  · nofun
  · exact decodeAsd_position w
  all_goals nofun

/-- The stream holds no commands. -/
theorem decodeStream_position (p : Position) (w : Word) : (decodeStream p w).position ≠ none := by
  unfold decodeStream
  split
  · exact decodeTagged_position w
  · split
    · simp [decodeCib, Instr.position]
    · exact decodeTagged_position w
  all_goals simp [Instr.position]

/-- What a step that answers `t` did in `s`. -/
inductive StepRun (s : State) : State → Prop
  /-- the stream ended with no END (R151) -/
  | noEnd (hbusy : s.busy = true) : StepRun s (s.parseFail .noEnd)
  | word {t : State} (hbusy : s.busy = true) (hcur : s.scan.cur < s.scan.lim) (h : WordEffect s.advance.2 t) :
      StepRun s t
  | waiting (hbusy : s.busy = false) : StepRun s s
  | command {t : State} {rest : List Word} (hbusy : s.busy = false) (h : CommandRun { s with commands := rest } t) :
      StepRun s t

theorem fetch_between (hbusy : s.busy = false) : fetch s = fetchCommand s := by simp [fetch, hbusy]

theorem fetch_scanning (hbusy : s.busy = true) : fetch s = fetchStream s := by simp [fetch, hbusy]

theorem step_run (h : step s = .next t) : StepRun s t := by
  unfold step at h
  cases hbusy : s.busy
  · rw [fetch_between hbusy, fetchCommand] at h
    cases hd : decodeCommand s.commands with
    | idle => rw [hd] at h; cases h; exact .waiting hbusy
    | incomplete => rw [hd] at h; cases h; exact .waiting hbusy
    | reservedBits => rw [hd] at h; cases h
    | unassigned opc => rw [hd] at h; cases h
    | command i rest =>
      rw [hd] at h
      by_cases hpos : i.position = none
      · exact .command hbusy (exec_commandRun hpos h)
      · cases hbusy.symm.trans (exec_wordEffect hpos h).1
  · rw [fetch_scanning hbusy, fetchStream] at h
    by_cases hlim : s.scan.lim ≤ s.scan.cur
    · rw [if_pos hlim] at h
      cases h
      exact .noEnd hbusy
    · rw [if_neg hlim] at h
      exact .word hbusy (BitVec.not_le.mp hlim) (exec_wordEffect (decodeStream_position _ _) h).2

end Steps

/-! ## The interrupt mask (R56) -/

/-- From `s` to `t` the mask is not touched, and no mask state is outstanding that was not. -/
def Unmasked (s t : State) : Prop :=
  ∃ es, t.trace = s.trace ++ es ∧ MaskFree es ∧ (s.irqSaved = none → t.irqSaved = none)

/-- From `s` to `t` the mask is touched at most by one pair, and no mask state is outstanding that was not. -/
def Restored (s t : State) : Prop :=
  ∃ es, t.trace = s.trace ++ es ∧ MaskPaired es ∧ (s.irqSaved = none → t.irqSaved = none)

section Mask

variable {s t u : State}

theorem Unmasked.restored (h : Unmasked s t) : Restored s t := by
  obtain ⟨es, htrace, he, hirq⟩ := h
  exact ⟨es, htrace, .inl he, hirq⟩

theorem Unmasked.trans (h : Unmasked s u) (k : Unmasked u t) : Unmasked s t := by
  obtain ⟨a, hta, ha, hia⟩ := h
  obtain ⟨b, htb, hb, hib⟩ := k
  exact ⟨a ++ b, by rw [htb, hta, List.append_assoc], (maskFree_append _ _).mpr ⟨ha, hb⟩, fun h0 => hib (hia h0)⟩

/-- Nothing is emitted. -/
theorem Unmasked.silent (htrace : t.trace = s.trace) (hirq : t.irqSaved = s.irqSaved) : Unmasked s t :=
  ⟨[], by rw [htrace, List.append_nil], maskFree_nil, hirq.trans⟩

theorem Probe.unmasked {es : List Event} {reg : Addr} (h : Probe s t es reg) (he : MaskFree es) : Unmasked s t :=
  ⟨es, h.trace, he, h.irqSaved.trans⟩

theorem scanDone_unmasked (s : State) : Unmasked s s.scanDone := by
  obtain ⟨es, ha, he, hirq, -⟩ := scanDone_acts s
  exact ⟨es, ha.trace, he, hirq.trans⟩

theorem parseFail_unmasked (c : ParseCause) (s : State) : Unmasked s (s.parseFail c) := .silent rfl rfl

theorem Parsing.unmasked (h : Parsing s u) : Unmasked s u :=
  .silent (congrArg State.trace h.frame :) (congrArg State.irqSaved h.frame :)

theorem WordEffect.unmasked (h : WordEffect s t) : Unmasked s t := by
  cases h with
  | going h => exact h.unmasked
  | failed h c => exact h.unmasked.trans (parseFail_unmasked c _)
  | done hpos => exact scanDone_unmasked s

theorem advance_unmasked (s : State) : Unmasked s s.advance.2 := ⟨_, rfl, by simp, id⟩

theorem locateStream_unmasked (s : State) : Unmasked s s.locateStream := by
  have hboot : s.bootEvent.isIrq = false := by unfold State.bootEvent; split <;> rfl
  have hopenEvent : (s.openEvent s.eromPtr).isIrq = false := by unfold State.openEvent; split <;> rfl
  obtain ⟨hopen, hfail⟩ := locateStream_spec s
  by_cases hp : field s.eromPtr 0 2 = 0#2
  · obtain ⟨u, hu, -, hprobe⟩ := hopen hp
    rw [hu]
    exact (hprobe.unmasked (by simp [hboot, hopenEvent])).trans (.silent rfl rfl)
  · obtain ⟨u, hu, -, hprobe⟩ := hfail hp
    rw [hu]
    exact (hprobe.unmasked (by simp [hboot])).trans (parseFail_unmasked _ u)

theorem legacyScan_unmasked (hrows : s.scan.rows = []) : Unmasked s s.legacyScan := by
  obtain ⟨rows, u, es, reg, -, hprobe, he, hend⟩ := legacyScan_spec s hrows
  have hwalk : Unmasked s u := (Unmasked.silent rfl rfl : Unmasked s (s.withRows rows)).trans (hprobe.unmasked he)
  rcases hend with hend | ⟨c, hend⟩
  · rw [hend]; exact hwalk.trans (scanDone_unmasked u)
  · rw [hend]; exact hwalk.trans (parseFail_unmasked c u)

theorem scanStart_unmasked (s : State) : Unmasked s s.scanStart := by
  have hprologue : Unmasked s s.scanPrologue := .silent rfl rfl
  unfold State.scanStart
  split
  · exact hprologue.trans (locateStream_unmasked _)
  · exact hprologue.trans (legacyScan_unmasked rfl)

theorem CommandRun.restored (h : CommandRun s t) : Restored s t := by
  cases h with
  | attached hbusy hcfg => exact ⟨[], (List.append_nil _).symm, .inl maskFree_nil, fun _ => rfl⟩
  | notAttached hbusy => exact (Unmasked.silent rfl rfl).restored
  | detached hready => exact (Unmasked.silent rfl rfl).restored
  | scan hready =>
    have hbegin : Unmasked s s.begin := .silent rfl rfl
    exact (hbegin.trans (scanStart_unmasked _)).restored
  | other h =>
    obtain ⟨u, ws, es, lg, rfl, ha, hm, hirq⟩ := h.acts
    exact ⟨es, ha.trace, hm, hirq⟩

theorem StepRun.restored (h : StepRun s t) : Restored s t := by
  cases h with
  | noEnd hbusy => exact (parseFail_unmasked _ s).restored
  | word hbusy hcur h => exact ((advance_unmasked s).trans h.unmasked).restored
  | waiting hbusy => exact (Unmasked.silent rfl rfl).restored
  | command hbusy h => exact h.restored

end Mask

/-- Settles O51: only a critical section touches the mask, and it is one pair (`CommandEffect.acts`). -/
theorem interruptsRestored : Obligations.InterruptsRestored := by
  intro s t h hirq
  obtain ⟨es, htrace, hm, hkeep⟩ := (step_run h).restored
  exact ⟨hkeep hirq, es, htrace, hm⟩

end Sys2Proof.Machine

/-! PROOFS. The invariant of the block (`State.Inv`): it holds at reset, and every step keeps it. `State.Steady` is
what it says whether or not a SCAN is in progress; commands and words keep that, and a word keeps what the invariant
says of a scan in progress. -/

namespace Sys2Proof.Machine

/-! ## The part of the invariant that is not about a scan in progress -/

/-- The invariant but for the SCAN in progress. -/
structure State.Steady (s : State) : Prop where
  cfg : s.cfg.legal
  table : s.TableInv
  focus : s.FocusInv
  aligned : s.AlignedInv
  resetting : s.resetting = none
  irq : s.irqSaved = none
  mem : s.bus.mem.wf
  mark : s.traceMark ≤ s.trace.length
  attachMark : s.attachMark ≤ s.trace.length

theorem State.Inv.steady {s : State} (h : s.Inv) : s.Steady :=
  ⟨h.cfg, h.table, h.focus, h.aligned, h.resetting, h.irq, h.mem, h.mark, h.attachMark⟩

theorem State.Steady.inv {s : State} (h : s.Steady) (hscan : s.busy = true → s.ScanInv) : s.Inv :=
  ⟨h.cfg, h.table, h.focus, hscan, h.aligned, h.resetting, h.irq, h.mem, h.mark, h.attachMark⟩

theorem State.Steady.inv_idle {s : State} (h : s.Steady) (hbusy : s.busy = false) : s.Inv :=
  h.inv fun hc => by cases hbusy.symm.trans hc

section Steady

variable {s t u : State}

theorem State.TableInv.congr (h : s.TableInv) (htable : t.table = s.table := by rfl) (hscan : t.scan = s.scan := by rfl)
    (hparams : t.params = s.params := by rfl) (hbws : t.bws = s.bws := by rfl)
    (hstatus : t.scanStatus = s.scanStatus := by rfl) (hatt : t.attached = s.attached := by rfl) : t.TableInv := by
  constructor
  · simpa only [htable, hparams] using h.bounded
  · simpa only [hscan, hparams] using h.stagedBounded
  · simpa only [htable] using h.dense
  · simpa only [hscan] using h.stagedDense
  · simpa only [htable] using h.secondary
  · simpa only [hscan] using h.stagedSecondary
  · simpa only [hscan] using h.secSize
  · simpa only [hbws, hparams] using h.bridges
  · simpa only [hstatus, htable] using h.failed
  · simpa only [hstatus, htable] using h.unscanned
  · simpa only [hatt, htable] using h.detached

theorem State.AlignedInv.congr (h : s.AlignedInv) (htable : t.table = s.table := by rfl)
    (hscan : t.scan = s.scan := by rfl) (hbws : t.bws = s.bws := by rfl) : t.AlignedInv := by
  constructor
  · simpa only [htable] using h.rows
  · simpa only [hscan] using h.staged
  · simpa only [hbws] using h.bridges
  · simpa only [hscan] using h.stream
  · simpa only [hscan] using h.primary
  · simpa only [hscan] using h.wrapper
  · simpa only [hscan] using h.unit

/-- What an operation that emits events and moves the focus keeps. -/
theorem State.Steady.acts {es : List Event} {lg : List LogEntry} (h : s.Steady) (k : Acts s t es lg)
    (hfocus : t.FocusInv) (hirq : t.irqSaved = none) : t.Steady where
  cfg := by rw [k.cfg]; exact h.cfg
  table := h.table.congr k.table k.scan k.params k.bws k.scanStatus k.attached
  focus := hfocus
  aligned := h.aligned.congr k.table k.scan k.bws
  resetting := k.resetting.trans h.resetting
  irq := hirq
  mem := by rw [k.mem]; exact replay_wf es h.mem
  mark := by rw [k.traceMark, k.trace, List.length_append]; exact Nat.le_add_right_of_le h.mark
  attachMark := by rw [k.attachMark, k.trace, List.length_append]; exact Nat.le_add_right_of_le h.attachMark

theorem State.Steady.begin (h : s.Steady) : s.begin.Steady :=
  ⟨h.cfg, h.table.congr, h.focus.congr, h.aligned.congr, h.resetting, h.irq, h.mem, Nat.le_refl _, h.attachMark⟩

theorem State.Steady.respond (h : s.Steady) (ws : List Word) : (s.respond ws).Steady :=
  ⟨h.cfg, h.table.congr, h.focus.congr, h.aligned.congr, h.resetting, h.irq, h.mem, h.mark, h.attachMark⟩

theorem State.Steady.logEntry (h : s.Steady) (e : LogEntry) : (s.logEntry e).Steady :=
  ⟨h.cfg, h.table.congr, h.focus.congr, h.aligned.congr, h.resetting, h.irq, h.mem, h.mark, h.attachMark⟩

theorem State.Steady.setCommands (h : s.Steady) (ws : List Word) : ({ s with commands := ws } : State).Steady :=
  ⟨h.cfg, h.table.congr, h.focus.congr, h.aligned.congr, h.resetting, h.irq, h.mem, h.mark, h.attachMark⟩

theorem State.Steady.setRouter (h : s.Steady) (o : Option Addr) : ({ s with oob := o } : State).Steady :=
  ⟨h.cfg, h.table.congr, h.focus.congr, h.aligned.congr, h.resetting, h.irq, h.mem, h.mark, h.attachMark⟩

/-- Every command but ATTACH, DETACH and SCAN keeps it. -/
theorem State.Steady.commandEffect (h : s.Steady) (k : CommandEffect s u) : u.Steady := by
  obtain ⟨es, lg, ha, -, hirq⟩ := k.acts
  exact h.acts ha (h.focus.commandEffect k) (hirq h.irq)

/-! ## The registers of SCAN -/

/-- What the invariant says of the registers of SCAN, `n` being the size of the table. -/
structure ScanRegs.Sound (n : Nat) (r : ScanRegs) : Prop where
  rows : RowsSound n r.rows
  secSize : ∀ a, r.sec = some a → a.size = Config.coreWindowSize
  stream : r.eromBase.toNat % 4 = 0
  primary : WordAligned r.pri.addr
  wrapper : ∀ wb, r.wrap = some wb → WordAligned wb
  unit : r.pos.Aligned

theorem State.Steady.regs (h : s.Steady) : s.scan.Sound s.params.maxCores :=
  ⟨⟨h.table.stagedBounded, h.table.stagedDense, h.table.stagedSecondary, h.aligned.staged⟩, h.table.secSize,
    h.aligned.stream, h.aligned.primary, h.aligned.wrapper, h.aligned.unit⟩

theorem State.Steady.setScan (h : s.Steady) {r : ScanRegs} (hr : r.Sound s.params.maxCores) :
    ({ s with scan := r } : State).Steady where
  cfg := h.cfg
  table := { h.table with
    stagedBounded := hr.rows.bounded, stagedDense := hr.rows.dense, stagedSecondary := hr.rows.secondary
    secSize := hr.secSize }
  focus := h.focus.congr
  aligned := { h.aligned with
    staged := hr.rows.aligned, stream := hr.stream, primary := hr.primary, wrapper := hr.wrapper, unit := hr.unit }
  resetting := h.resetting
  irq := h.irq
  mem := h.mem
  mark := h.mark
  attachMark := h.attachMark

theorem State.Steady.withRows (h : s.Steady) {rows : List CoreDescriptor} (hr : RowsSound s.params.maxCores rows) :
    (s.withRows rows).Steady := h.setScan { h.regs with rows := hr }

/-- One bridge more, while there is room (R217). -/
theorem State.Steady.addBridge (h : s.Steady) {b : Addr} (hroom : s.bws.length ≠ s.params.maxBridges)
    (hb : WordAligned b) : ({ s with bws := s.bws ++ [b] } : State).Steady where
  cfg := h.cfg
  table := { h.table with
    bridges := by
      have := h.table.bridges
      simp only [List.length_append, List.length_singleton]
      omega }
  focus := h.focus.congr
  aligned := { h.aligned with
    bridges := by
      intro b' hb'
      rcases List.mem_append.mp hb' with hb' | hb'
      · exact h.aligned.bridges b' hb'
      · rw [List.mem_singleton.mp hb']
        exact hb }
  resetting := h.resetting
  irq := h.irq
  mem := h.mem
  mark := h.mark
  attachMark := h.attachMark

/-- The row of the component just parsed is a sound one (R220). -/
theorem State.Steady.newRow (h : s.Steady) : s.newRow.SecondaryOk ∧ s.newRow.Aligned := by
  refine ⟨?_, h.aligned.primary, h.aligned.wrapper⟩
  cases hsec : s.scan.sec with
  | none => exact .inl ⟨by simp [State.newRow, hsec], by simp [State.newRow, hsec]⟩
  | some a => exact .inr ⟨a.addr, by simp [State.newRow, hsec], by simp [State.newRow, hsec, h.table.secSize a hsec]⟩

/-- Working off a word keeps it. -/
theorem Parsing.steady (h : Parsing s u) (hs : s.Steady) : u.Steady := by
  have hunit := hs.aligned.unit
  induction h with
  | start => exact hs
  | pushedBack => exact hs.setScan { hs.regs with }
  | warn h he ih => exact ih.logEntry _
  | goTo h hp ih => exact ih.setScan { ih.regs with unit := hp hunit }
  | identity h hr ih => rw [hr]; exact ih.setScan { ih.regs with }
  | primary h ha ih => exact ih.setScan { ih.regs with primary := ha hunit }
  | secondary h ho ih => exact ih.setScan { ih.regs with secSize := ho }
  | wrapper h ho ih => exact ih.setScan { ih.regs with wrapper := ho hunit }
  | router h ih => exact ih.setRouter _
  | bridge h hroom hb ih => exact ih.addBridge hroom (hb hunit)
  | row h hroom ih =>
    obtain ⟨hsec, hal⟩ := ih.newRow
    exact ih.setScan { ih.regs with rows := ih.regs.rows.append hroom rfl hsec hal }

/-! ## A scan from its prologue to its end -/

/-- The block is attached, and the old table, focus and caches are gone (R195). -/
structure State.Cleared (s : State) : Prop where
  attached : s.attached = true
  table : s.table = []
  focus : s.focus = Focus.unset
  mapReg : s.mapReg = []
  mapWrap : s.mapWrap = []

theorem State.ScanInv.cleared (h : s.ScanInv) : s.Cleared := ⟨h.attached, h.table, h.focus, h.mapReg, h.mapWrap⟩

theorem State.Cleared.focusInv (h : s.Cleared) : s.FocusInv := .of_unset h.focus h.mapReg h.mapWrap

theorem Parsing.cleared (h : Parsing s u) (hs : s.Cleared) : u.Cleared :=
  ⟨(congrArg State.attached h.frame :).trans hs.attached, (congrArg State.table h.frame :).trans hs.table,
    (congrArg State.focus h.frame :).trans hs.focus, (congrArg State.mapReg h.frame :).trans hs.mapReg,
    (congrArg State.mapWrap h.frame :).trans hs.mapWrap⟩

theorem Probe.cleared {es : List Event} {reg : Addr} (h : Probe s u es reg) (hs : s.Cleared) : u.Cleared :=
  ⟨h.attached.trans hs.attached, h.table.trans hs.table, h.focus.trans hs.focus, h.mapReg.trans hs.mapReg,
    h.mapWrap.trans hs.mapWrap⟩

theorem State.Steady.probe {es : List Event} {reg : Addr} (h : s.Steady) (hs : s.Cleared) (k : Probe s u es reg) :
    u.Steady := h.acts k.toActs (k.cleared hs).focusInv (k.irqSaved.trans h.irq)

theorem State.Steady.scanPrologue (h : s.Steady) : s.scanPrologue.Steady where
  cfg := h.cfg
  table := { h.table with
    bounded := Nat.zero_le _, stagedBounded := Nat.zero_le _, dense := nofun, stagedDense := nofun
    secondary := nofun, stagedSecondary := nofun, bridges := Nat.zero_le _, failed := fun _ _ _ => rfl
    unscanned := fun _ => rfl, detached := fun _ => rfl }
  focus := .of_unset rfl rfl rfl
  aligned := { h.aligned with rows := nofun, staged := nofun, bridges := nofun }
  resetting := h.resetting
  irq := h.irq
  mem := h.mem
  mark := h.mark
  attachMark := h.attachMark

/-- The failure epilogue (R221). -/
theorem State.Steady.parseFail (h : s.Steady) (hs : s.Cleared) (c : ParseCause) : (s.parseFail c).Steady where
  cfg := h.cfg
  table := { h.table with
    bounded := Nat.zero_le _, stagedBounded := Nat.zero_le _, dense := nofun, stagedDense := nofun
    secondary := nofun, stagedSecondary := nofun, bridges := Nat.zero_le _, failed := fun _ _ _ => rfl
    unscanned := fun _ => rfl, detached := fun _ => rfl }
  focus := .of_unset rfl hs.mapReg hs.mapWrap
  aligned := { h.aligned with rows := nofun, staged := nofun, bridges := nofun }
  resetting := h.resetting
  irq := h.irq
  mem := h.mem
  mark := h.mark
  attachMark := h.attachMark

/-- The success epilogue (R222): the staged rows are the table, which the focus switch then leaves alone. -/
theorem State.Steady.scanDone (h : s.Steady) (hs : s.Cleared) : s.scanDone.Steady := by
  have htable : ({ s with
      table := s.scan.rows, scanStatus := .ok, scan := { s.scan with rows := [] }
      busy := false, response := answerStatus .ok } : State).Steady :=
    { h with
      table := { h.table with
        bounded := h.table.stagedBounded, stagedBounded := Nat.zero_le _, dense := h.table.stagedDense
        stagedDense := nofun, secondary := h.table.stagedSecondary, stagedSecondary := nofun
        failed := nofun, unscanned := nofun, detached := fun hd => by cases hs.attached.symm.trans hd }
      focus := .of_unset hs.focus hs.mapReg hs.mapWrap
      aligned := { h.aligned with rows := h.aligned.staged, staged := nofun } }
  obtain ⟨es, ha, -, hirq, -⟩ := scanDone_acts s
  exact htable.acts ha (htable.focus.switchTo 0#32) (hirq.trans h.irq)

theorem scanDone_busy (s : State) : s.scanDone.busy = false := by
  obtain ⟨es, ha, -⟩ := scanDone_acts s
  exact ha.busy

/-! ## One word of the stream -/

/-- Pushing back a cursor that is past its start keeps it below its limit. -/
theorem cursor_le {c lim : Word} (hpos : c ≠ 0#32) (hle : c ≤ lim) : c - 1#32 ≤ lim := by bv_omega

/-- A word leaves the scan in progress as its prologue left it. -/
theorem Parsing.scanInv (h : Parsing s u) (hs : s.ScanInv) (hcur : s.scan.cur ≠ 0#32) : u.ScanInv := by
  have hc := h.cleared hs.cleared
  have hcfg : u.cfg = s.cfg := (congrArg State.cfg h.frame :)
  obtain ⟨hlim, herom⟩ := h.stream
  constructor
  · exact hc.attached
  · rw [hcfg]; exact hs.advanced
  · rw [hlim]; exact hs.limit
  · rw [hlim]
    rcases h.cursor with hu | hu
    · rw [hu]; exact hs.cursor
    · rw [hu]; exact cursor_le hcur hs.cursor
  · exact hc.table
  · exact hc.focus
  · exact hc.mapReg
  · exact hc.mapWrap
  · intro hflat
    have hflat' : s.flat = false := by unfold State.flat at *; rw [← hcfg]; exact hflat
    have hreg : u.winReg = s.winReg := (congrArg State.winReg h.frame :)
    rw [herom, hreg]
    exact hs.window hflat'

/-- What a word does keeps the invariant, the cursor being past the word. -/
theorem WordEffect.inv (h : WordEffect s t) (hs : s.Steady) (hscan : s.ScanInv) (hcur : s.scan.cur ≠ 0#32) :
    t.Inv := by
  cases h with
  | going h => exact (h.steady hs).inv fun _ => h.scanInv hscan hcur
  | failed h c => exact ((h.steady hs).parseFail (h.cleared hscan.cleared) c).inv_idle rfl
  | done hpos => exact (hs.scanDone hscan.cleared).inv_idle (scanDone_busy s)

theorem advance_probe (s : State) :
    Probe s (s.memRead .plain s.streamPa).2 [.memRead .plain s.streamPa s.advance.1] s.winReg :=
  probe_memRead _ _ s

theorem State.Steady.advance (h : s.Steady) (hscan : s.ScanInv) : s.advance.2.Steady := by
  have hread := h.probe hscan.cleared (advance_probe s)
  exact hread.setScan { hread.regs with }

/-- Reading a word below the limit moves the cursor by one (R151). -/
theorem State.ScanInv.advance (h : s.ScanInv) (hlt : s.scan.cur < s.scan.lim) :
    s.advance.2.ScanInv ∧ s.advance.2.scan.cur ≠ 0#32 := by
  have hcur : s.scan.cur + 1#32 ≤ s.scan.lim ∧ s.scan.cur + 1#32 ≠ 0#32 := by
    constructor <;> bv_omega
  exact ⟨{ h with cursor := hcur.1 }, hcur.2⟩

/-! ## The commands of a session -/

theorem State.Steady.detached (h : s.Steady) : s.detached.Steady where
  cfg := h.cfg
  table := { h.table with
    bounded := Nat.zero_le _, dense := nofun, secondary := nofun, bridges := Nat.zero_le _
    failed := nofun, unscanned := fun _ => rfl, detached := fun _ => rfl }
  focus := .of_unset rfl rfl rfl
  aligned := { h.aligned with rows := nofun, bridges := nofun }
  resetting := h.resetting
  irq := h.irq
  mem := h.mem
  mark := h.mark
  attachMark := h.attachMark

/-- A block with every register at its value of ATTACH, in a legal configuration and with a canonical memory. -/
theorem steady_of_attachReset {cfg : Cfg} (hcfg : cfg.legal) (hmem : s.bus.mem.wf)
    (hmark : s.traceMark ≤ s.trace.length) : (s.attachReset cfg).Steady where
  cfg := hcfg
  table :=
    { bounded := Nat.zero_le _, stagedBounded := Nat.zero_le _, dense := nofun, stagedDense := nofun
      secondary := nofun, stagedSecondary := nofun, secSize := nofun, bridges := Nat.zero_le _
      failed := nofun, unscanned := fun _ => rfl, detached := nofun }
  focus := .of_unset rfl rfl rfl
  aligned :=
    { rows := nofun, staged := nofun, bridges := nofun, stream := rfl, primary := rfl, wrapper := nofun
      unit := trivial }
  resetting := rfl
  irq := rfl
  mem := hmem
  mark := hmark
  attachMark := Nat.le_refl _

/-- The stream is opened at an aligned address (R196, R197). -/
theorem State.Steady.openStream (h : s.Steady) {p : Word} (hp : p.toNat % 4 = 0) : (s.openStream p).Steady :=
  h.setScan (r := { s.scan with
      eromBase := p, cur := 0, lim := Config.eromLimitWords, rows := [], pos := .identity })
    { h.regs with rows := .nil _, stream := hp, unit := trivial }

/-- SCAN's own step on an Advanced bus. -/
theorem locateStream_inv (h : s.Steady) (hs : s.Cleared) (hgen : s.cfg.busGen = .advanced) :
    s.locateStream.Inv := by
  obtain ⟨hopen, hfail⟩ := locateStream_spec s
  by_cases hp : field s.eromPtr 0 2 = 0#2
  · obtain ⟨u, hu, -, hprobe⟩ := hopen hp
    have hsteady := h.probe hs hprobe
    have hc := hprobe.cleared hs
    have hptr : s.eromPtr.toNat % 4 = 0 := by
      have hbits := congrArg BitVec.toNat hp
      simpa [field] using hbits
    rw [hu]
    refine (hsteady.openStream hptr).inv fun _ => ?_
    refine ⟨hc.attached, (congrArg Cfg.busGen hprobe.cfg).trans hgen, rfl, ?_, hc.table, hc.focus, hc.mapReg,
      hc.mapWrap, fun hflat => ?_⟩
    · exact Nat.zero_le _
    · have hflat' : s.flat = false := hprobe.flat.symm.trans hflat
      exact hprobe.reg.trans (by simp [hflat'])
  · obtain ⟨u, hu, -, hprobe⟩ := hfail hp
    rw [hu]
    exact ((h.probe hs hprobe).parseFail (hprobe.cleared hs) _).inv_idle rfl

/-- SCAN on the legacy bus. -/
theorem legacyScan_inv (h : s.Steady) (hs : s.Cleared) (hrows : s.scan.rows = []) : s.legacyScan.Inv := by
  obtain ⟨rows, u, es, reg, hsound, hprobe, -, hend⟩ := legacyScan_spec s hrows
  have hstaged : (s.withRows rows).Cleared := { hs with }
  have hsteady := (h.withRows hsound).probe hstaged hprobe
  have hc := hprobe.cleared hstaged
  rcases hend with hend | ⟨c, hend⟩
  · rw [hend]; exact (hsteady.scanDone hc).inv_idle (scanDone_busy u)
  · rw [hend]; exact (hsteady.parseFail hc c).inv_idle rfl

theorem scanStart_inv (h : s.Steady) (hatt : s.attached = true) : s.scanStart.Inv := by
  have hc : s.scanPrologue.Cleared := ⟨hatt, rfl, rfl, rfl, rfl⟩
  unfold State.scanStart
  split
  · exact locateStream_inv h.scanPrologue hc ‹_›
  · exact legacyScan_inv h.scanPrologue hc rfl

/-- Every command keeps the invariant. -/
theorem CommandRun.inv (h : CommandRun s t) (hs : s.Steady) : t.Inv := by
  cases h with
  | attached hbusy hcfg =>
    exact ((steady_of_attachReset (s := s.begin) hcfg hs.mem (Nat.le_refl _)).respond _).inv_idle rfl
  | notAttached hbusy => exact (hs.begin.respond _).inv_idle hbusy
  | detached hready => exact (hs.begin.detached.respond _).inv_idle hready.1
  | scan hready => exact scanStart_inv hs.begin hready.2
  | other h =>
    obtain ⟨hready, u, ws, heffect, rfl⟩ := h
    obtain ⟨es, lg, ha, -⟩ := heffect.acts
    exact ((hs.begin.commandEffect heffect).respond ws).inv_idle (ha.busy.trans hready.1)

theorem StepRun.inv (h : StepRun s t) (hs : s.Inv) : t.Inv := by
  cases h with
  | noEnd hbusy => exact (hs.steady.parseFail (hs.scan hbusy).cleared _).inv_idle rfl
  | word hbusy hlt h =>
    obtain ⟨hscan, hcur⟩ := (hs.scan hbusy).advance hlt
    exact h.inv (hs.steady.advance (hs.scan hbusy)) hscan hcur
  | waiting hbusy => exact hs
  | command hbusy h => exact h.inv (hs.steady.setCommands _)

end Steady

/-- Settles O60: the block at reset is one attached in the configuration of reset and detached at once. -/
theorem resetHasInvariant : Obligations.ResetHasInvariant := by
  have hattach := steady_of_attachReset (s := State.reset) (cfg := State.reset.cfg)
    ⟨fun _ => ⟨rfl, rfl⟩, fun h => absurd rfl h, Nat.zero_le _⟩ reset_mem_wf (Nat.le_refl _)
  have hdetach := hattach.detached
  exact hdetach.inv_idle rfl

/-- Settles O59: a step is a word or a command (`step_run`), and each keeps the invariant. -/
theorem stepKeepsInvariant : Obligations.StepKeepsInvariant :=
  fun _ _ hs h => (step_run h).inv hs

end Sys2Proof.Machine

/-! PROOFS. Words of memory under the events of a command (20_memory.md R75, 92_eei_decisions.md D35): a word reads
back, words at other multiples of 4 stay, and events with no write leave memory alone. -/

namespace Sys2Proof.Machine

/-! ## Words (log 4) -/

/-- A word is its four bytes. -/
theorem bytes_append (v : Word) :
    v.extractLsb' 24 8 ++ v.extractLsb' 16 8 ++ v.extractLsb' 8 8 ++ v.extractLsb' 0 8 = v := by
  have high : v.extractLsb' 24 8 ++ v.extractLsb' 16 8 = v.extractLsb' 16 16 :=
    BitVec.extractLsb'_append_extractLsb'_eq_extractLsb' rfl
  have upper : v.extractLsb' 16 16 ++ v.extractLsb' 8 8 = v.extractLsb' 8 24 :=
    BitVec.extractLsb'_append_extractLsb'_eq_extractLsb' rfl
  have whole : v.extractLsb' 8 24 ++ v.extractLsb' 0 8 = v.extractLsb' 0 32 :=
    BitVec.extractLsb'_append_extractLsb'_eq_extractLsb' rfl
  rw [high, upper, whole, BitVec.extractLsb'_eq_self]

/-- A word reads back (R75). -/
theorem readWord_writeWord_same {m : Memory} (h : m.wf) (pa : Addr) (v : Word) :
    (m.writeWord pa v).readWord pa = v := by
  have h0 := writeByte_wf pa.toNat (v.extractLsb' 0 8) (BitVec.isLt _) h
  have h1 := writeByte_wf (pa + 1#64).toNat (v.extractLsb' 8 8) (BitVec.isLt _) h0
  have h2 := writeByte_wf (pa + 2#64).toNat (v.extractLsb' 16 8) (BitVec.isLt _) h1
  have n01 : pa.toNat ≠ (pa + 1#64).toNat := by bv_omega
  have n02 : pa.toNat ≠ (pa + 2#64).toNat := by bv_omega
  have n03 : pa.toNat ≠ (pa + 3#64).toNat := by bv_omega
  have n12 : (pa + 1#64).toNat ≠ (pa + 2#64).toNat := by bv_omega
  have n13 : (pa + 1#64).toNat ≠ (pa + 3#64).toNat := by bv_omega
  have n23 : (pa + 2#64).toNat ≠ (pa + 3#64).toNat := by bv_omega
  simp only [Memory.readWord, Memory.writeWord, readByte_writeByte h, readByte_writeByte h0, readByte_writeByte h1,
    readByte_writeByte h2, n01, n02, n03, n12, n13, n23, if_true, if_false]
  exact bytes_append v

/-- Words at two multiples of 4 share no byte. -/
theorem notMem_wordBytes {pa qa : Addr} (hp : WordAligned pa) (hq : WordAligned qa) (hne : qa ≠ pa) {k : Nat}
    (hk : k ∈ wordBytes qa) : k ∉ wordBytes pa := by
  have hne' : qa.toNat ≠ pa.toNat := fun h => hne (BitVec.eq_of_toNat_eq h)
  have hbound := pa.isLt
  have hbound' := qa.isLt
  simp only [wordBytes, List.mem_cons, List.not_mem_nil, or_false, BitVec.toNat_add, BitVec.toNat_ofNat] at *
  omega

/-- Storing a word leaves a word at another multiple of 4. -/
theorem readWord_writeWord_other (m : Memory) {pa qa : Addr} (v : Word) (hp : WordAligned pa) (hq : WordAligned qa)
    (hne : qa ≠ pa) : (m.writeWord pa v).readWord qa = m.readWord qa := by
  have hbyte : ∀ k ∈ wordBytes qa, (m.writeWord pa v).readByte k = m.readByte k :=
    fun k hk => readByte_writeWord_other m pa v (notMem_wordBytes hp hq hne hk)
  simp only [Memory.readWord, hbyte _ (by simp [wordBytes] : qa.toNat ∈ wordBytes qa),
    hbyte _ (by simp [wordBytes] : (qa + 1#64).toNat ∈ wordBytes qa),
    hbyte _ (by simp [wordBytes] : (qa + 2#64).toNat ∈ wordBytes qa),
    hbyte _ (by simp [wordBytes] : (qa + 3#64).toNat ∈ wordBytes qa)]

/-! ## Events that write nothing -/

/-- None of these events is a bus write. -/
def WriteFree (es : List Event) : Prop := ∀ e ∈ es, e.isWrite = false

@[simp] theorem isWrite_memRead (path : AccessPath) (pa : Addr) (v : Word) :
    (Event.memRead path pa v).isWrite = false := rfl
@[simp] theorem isWrite_memWrite (path : AccessPath) (pa : Addr) (v : Word) :
    (Event.memWrite path pa v).isWrite = true := rfl
@[simp] theorem isWrite_winSet (w : Window) (base : Addr) : (Event.winSet w base).isWrite = false := rfl
@[simp] theorem isWrite_map (pa size : Addr) : (Event.map pa size).isWrite = false := rfl
@[simp] theorem isWrite_delay (n : Nat) : (Event.delay n).isWrite = false := rfl
@[simp] theorem isWrite_irqMask (n : Nat) : (Event.irqMask n).isWrite = false := rfl
@[simp] theorem isWrite_irqRestore (n : Nat) : (Event.irqRestore n).isWrite = false := rfl

@[simp] theorem writeFree_nil : WriteFree [] := nofun

@[simp] theorem writeFree_cons (e : Event) (es : List Event) :
    WriteFree (e :: es) ↔ e.isWrite = false ∧ WriteFree es := List.forall_mem_cons

@[simp] theorem writeFree_append (a b : List Event) : WriteFree (a ++ b) ↔ WriteFree a ∧ WriteFree b :=
  List.forall_mem_append

theorem replay_of_writeFree {es : List Event} (h : WriteFree es) (m : Memory) : replay es m = m := by
  induction es with
  | nil => rfl
  | cons e rest ih =>
    obtain ⟨he, hrest⟩ := (writeFree_cons e rest).mp h
    cases e
    case memWrite => cases he
    all_goals exact ih hrest

@[simp] theorem replay_memWrite (path : AccessPath) (pa : Addr) (v : Word) (rest : List Event) (m : Memory) :
    replay (.memWrite path pa v :: rest) m = replay rest (m.writeWord pa v) := rfl

@[simp] theorem replay_memRead (path : AccessPath) (pa : Addr) (v : Word) (rest : List Event) (m : Memory) :
    replay (.memRead path pa v :: rest) m = replay rest m := rfl

@[simp] theorem replay_delay (n : Nat) (rest : List Event) (m : Memory) :
    replay (.delay n :: rest) m = replay rest m := rfl

@[simp] theorem replay_nil (m : Memory) : replay [] m = m := rfl

/-- Focus switches, masks and Maps around a body write nothing. -/
theorem replay_between {before after : List Event} (hbefore : WriteFree before) (hafter : WriteFree after)
    (es : List Event) (m : Memory) : replay (before ++ es ++ after) m = replay es m := by
  rw [replay_append, replay_append, replay_of_writeFree hbefore, replay_of_writeFree hafter]

theorem writeFree_switchEvents (s : State) (i : Word) : WriteFree (s.switchEvents i) := by
  unfold State.switchEvents
  split
  · simp
  · split
    · split <;> simp
    · simp

theorem writeFree_enterEvents (s : State) (i : Word) : WriteFree (s.enterEvents i) :=
  (writeFree_cons _ _).mpr ⟨rfl, writeFree_switchEvents s i⟩

theorem writeFree_leaveEvents (s : State) (i : Word) : WriteFree (s.leaveEvents i) := by
  unfold State.leaveEvents
  rw [writeFree_append]
  refine ⟨?_, by simp⟩
  split
  · split
    · simp
    · exact writeFree_switchEvents s _
  · simp

theorem writeFree_mapOnce (c : Option Addr) (b : Addr) : WriteFree (mapOnce c b) := by
  intro e he
  rw [mem_mapOnce he]
  rfl

theorem writeFree_wrapperEnter (s : State) (i : Word) (wb : Addr) : WriteFree (s.wrapperEnter i wb) := by
  unfold State.wrapperEnter
  split
  · split <;> simp
  · exact writeFree_enterEvents s i

theorem writeFree_wrapperLeave (s : State) (i : Word) : WriteFree (s.wrapperLeave i) := by
  unfold State.wrapperLeave
  split
  · simp
  · exact writeFree_leaveEvents s i

theorem writeFree_pollEvents (period : Nat) (pa : Addr) (vs : List Word) : WriteFree (pollEvents period pa vs) := by
  induction vs with
  | nil => exact writeFree_nil
  | cons v rest ih =>
    cases rest with
    | nil => simp [pollEvents]
    | cons w rest => simpa [pollEvents] using ih

theorem IsWait.writeFree {period maxPolls : Nat} {pa : Addr} {es : List Event} {drained : Bool}
    (h : IsWait period maxPolls pa es drained) : WriteFree es := by
  obtain ⟨vs, last, rfl, -⟩ := h
  exact writeFree_pollEvents _ _ _

theorem IsTwoTierWait.writeFree {p : Params} {pa : Addr} {es : List Event} {tolerated : Bool}
    (h : IsTwoTierWait p pa es tolerated) : WriteFree es := by
  rcases h with ⟨-, hshort⟩ | ⟨short, long, rfl, hshort, hlong⟩
  · exact hshort.writeFree
  · exact (writeFree_append _ _).mpr ⟨hshort.writeFree, hlong.writeFree⟩

/-! ## Masked read-modify-write (R315) -/

/-- What a masked operation leaves in memory: its word is written if mask or value is not 0. -/
theorem IsRmw.replay_eq {path : AccessPath} {pa : Addr} {mask value : Word} {es : List Event} {result : Word}
    (h : IsRmw path pa mask value es result) (m : Memory) :
    replay es m = m ∨ ∃ v, replay es m = m.writeWord pa v := by
  rcases h with ⟨-, rfl⟩ | ⟨-, w, rfl⟩
  · exact .inl rfl
  · exact .inr ⟨_, rfl⟩

/-- It leaves a word at another multiple of 4. -/
theorem IsRmw.readWord_other {path : AccessPath} {pa qa : Addr} {mask value : Word} {es : List Event} {result : Word}
    (h : IsRmw path pa mask value es result) (hp : WordAligned pa) (hq : WordAligned qa) (hne : qa ≠ pa)
    (m : Memory) : (replay es m).readWord qa = m.readWord qa := by
  rcases h.replay_eq m with hm | ⟨v, hm⟩
  · rw [hm]
  · rw [hm, readWord_writeWord_other m v hp hq hne]

end Sys2Proof.Machine

/-! PROOFS. The lifecycle state of a core (10_state.md R58) and its transitions (45_lifecycle.md R357), on the
reference device (92_eei_decisions.md D35). There the state is a function of two words of memory
(`WrapperOnDevice.lifecycle`), and a command's events say what becomes of them. -/

namespace Sys2Proof.Machine

/-! ## The state as a function of two registers (R58) -/

theorem bit_eq_one : ∀ b : BitVec 1, b = 1#1 ↔ b.getLsbD 0 = true := by decide

theorem bit_eq_zero : ∀ b : BitVec 1, b = 0#1 ↔ b.getLsbD 0 = false := by decide

theorem field_bit (w : Word) (k : Nat) : field w k 1 = 1#1 ↔ w.getLsbD k = true := by
  rw [bit_eq_one]
  simp [field]

theorem field_bit_zero (w : Word) (k : Nat) : field w k 1 = 0#1 ↔ w.getLsbD k = false := by
  rw [bit_eq_zero]
  simp [field]

theorem lifecycleOf_bits (r : Bool) (rc io : Word) : lifecycleOf r rc io =
    (if r then .resetting else if rc.getLsbD 0 then .disabled
      else if io.getLsbD 0 && !io.getLsbD 1 then .enabled else .unknown) := by
  simp only [lifecycleOf, field_bit, field_bit_zero, Bool.and_eq_true, Bool.not_eq_true']

theorem lifecycleOf_disabled {rc io : Word} (h : rc.getLsbD 0 = true) : lifecycleOf false rc io = .disabled := by
  rw [lifecycleOf_bits, h]
  rfl

theorem lifecycleOf_enabled {rc io : Word} (hrc : rc.getLsbD 0 = false) (h0 : io.getLsbD 0 = true)
    (h1 : io.getLsbD 1 = false) : lifecycleOf false rc io = .enabled := by
  rw [lifecycleOf_bits, hrc, h0, h1]
  rfl

theorem lifecycleOf_unknown {rc io : Word} (hrc : rc.getLsbD 0 = false)
    (hio : io.getLsbD 0 = false ∨ io.getLsbD 1 = true) : lifecycleOf false rc io = .unknown := by
  rw [lifecycleOf_bits, hrc]
  rcases hio with h | h
  · rw [h]; rfl
  · rw [h, Bool.not_true, Bool.and_false]; rfl

/-- Disabled is bit 0 of `RESETCTRL`. -/
theorem bit_of_lifecycleOf_disabled {rc io : Word} (h : lifecycleOf false rc io = .disabled) :
    rc.getLsbD 0 = true := by
  by_contra hc
  rw [lifecycleOf_bits] at h
  split_ifs at h

/-- Enabled is out of reset, the clock on and not forced. -/
theorem bits_of_lifecycleOf_enabled {rc io : Word} (h : lifecycleOf false rc io = .enabled) :
    rc.getLsbD 0 = false ∧ io.getLsbD 0 = true ∧ io.getLsbD 1 = false := by
  rw [lifecycleOf_bits, if_neg Bool.false_ne_true] at h
  split_ifs at h with hrc hio
  rw [Bool.and_eq_true, Bool.not_eq_true'] at hio
  exact ⟨Bool.not_eq_true _ ▸ hrc, hio⟩

theorem wrapperOf_eq {s : State} {i : Word} {d : CoreDescriptor} {wb : Addr} (hrow : s.row i = some d)
    (hw : d.wrapperAddr = some wb) : s.wrapperOf i = some wb := by simp [State.wrapperOf, hrow, hw]

theorem lifecycle_eq {s : State} {i : Word} {wb : Addr} (h : s.wrapperOf i = some wb) :
    s.lifecycle i = lifecycleOf (s.resetting == some i) (s.busAnswer (wb + Config.resetCtrl))
      (s.busAnswer (wb + Config.ioCtrl)) := by simp [State.lifecycle, h]

theorem knownLifecycle_eq {s : State} {i : Word} {wb : Addr} (h : s.wrapperOf i = some wb) :
    s.knownLifecycle i = if s.resetting == some i || s.hasReadWrapper wb then s.lifecycle i else .unknown := by
  simp [State.knownLifecycle, h]

/-- The block has read a lifecycle register exactly if such a read is in its trace since ATTACH (R58, R470). -/
theorem hasReadWrapper_iff (s : State) (wb : Addr) : s.hasReadWrapper wb = true ↔
    ∃ path pa v, .memRead path pa v ∈ s.trace.drop s.attachMark ∧
      (pa = wb + Config.resetCtrl ∨ pa = wb + Config.ioCtrl) := by
  unfold State.hasReadWrapper
  rw [List.any_eq_true]
  constructor
  · rintro ⟨e, he, hread⟩
    cases e with
    | memRead path pa v => exact ⟨path, pa, v, he, by simpa using hread⟩
    | _ => cases hread
  · rintro ⟨path, pa, v, he, hpa⟩
    exact ⟨_, he, by simpa using hpa⟩

/-! ## Commands on a core whose wrapper can be reached -/

section Reachable

variable {s : State} {i : Word} {d : CoreDescriptor} {wb : Addr}

theorem State.WrapperReachable.begin (h : s.WrapperReachable i d wb) : s.begin.WrapperReachable i d wb :=
  ⟨h.row, h.wrapper, h.windows⟩

theorem State.WrapperReachable.whileResetting (h : s.WrapperReachable i d wb) :
    ({ s with resetting := some i } : State).WrapperReachable i d wb := ⟨h.row, h.wrapper, h.windows⟩

/-- The range checks of R341 let such a core pass. -/
theorem State.WrapperReachable.usable (h : s.WrapperReachable i d wb) : s.usableWrapper i = some (d, wb) := by
  have hcount : (!s.flat && s.cfg.windowCount == 1) = false := by
    cases hf : s.flat
    · simp [(h.windows hf).1]
    · rfl
  simp [State.usableWrapper, h.row, h.wrapper, hcount]

theorem lifecycleCommand_reachable (hready : s.ready) (h : s.WrapperReachable i d wb)
    (run : Addr → State → Unit × State) :
    lifecycleCommand i run s = .next ((run wb s.begin).2.respond [0#32]) := by
  unfold lifecycleCommand
  rw [command_ready _ s hready, h.begin.usable]
  rfl

theorem exec_disable_reachable (hready : s.ready) (h : s.WrapperReachable i d wb) (b : Word) :
    exec (.disable i b) s = .next ((s.begin.withWrapper i wb (disableBody b wb)).2.respond [0#32]) :=
  lifecycleCommand_reachable hready h _

theorem exec_reset_reachable (hready : s.ready) (h : s.WrapperReachable i d wb) (io ro : Word) :
    exec (.reset i io ro) s = .next ((s.begin.whileResetting i
      (fun u => u.withWrapper i wb (resetBody io ro wb))).2.respond [0#32]) :=
  lifecycleCommand_reachable hready h _

theorem execIsUp_reachable (hready : s.ready) (h : s.WrapperReachable i d wb) :
    execIsUp i s = .next ((s.begin.withWrapper i wb (isUpBody wb)).2.respond
      (answer32 (s.begin.withWrapper i wb (isUpBody wb)).1 .ok)) := by
  unfold execIsUp
  rw [command_ready _ s hready, h.begin.usable]

theorem flagsCommand_guarded (hready : s.ready) (h : s.WrapperReachable i d wb)
    (hg : s.params.guarded s.cfg.family d.coreId = true) (x : Addr) (mask value : Word) :
    flagsCommand x i mask value s =
      .next ((s.begin.logEntry (.guardRefusal i)).respond (answer32 0 .guardRefusal)) := by
  unfold flagsCommand
  rw [command_ready _ s hready, h.begin.usable]
  simp only [begin_params, begin_cfg, hg, if_true]

theorem flagsCommand_unguarded (hready : s.ready) (h : s.WrapperReachable i d wb)
    (hg : s.params.guarded s.cfg.family d.coreId = false) (x : Addr) (mask value : Word) :
    flagsCommand x i mask value s = .next ((s.begin.withWrapper i wb (flagsBody x mask value wb)).2.respond
      (answer32 (s.begin.withWrapper i wb (flagsBody x mask value wb)).1 .ok)) := by
  unfold flagsCommand
  rw [command_ready _ s hready, h.begin.usable]
  simp only [begin_params, begin_cfg, hg, Bool.false_eq_true, if_false]

/-- A wrapper body between a prologue and an epilogue that write nothing. -/
theorem withWrapper_acts {α : Type} {body : State → α × State} {Q : List Event → α → Prop}
    (hr : s.WrapperReachable i d wb)
    (hb : ∀ u : State, u.params = s.params → (∀ x, u.wrapperPa wb x = wb + x) →
      ∃ es lg, Body u (body u).2 es lg ∧ Q es (body u).1) :
    ∃ before es after lg, Acts s (s.withWrapper i wb body).2 (before ++ es ++ after) lg ∧ WriteFree before ∧
      WriteFree after ∧ Q es (s.withWrapper i wb body).1 := by
  obtain ⟨es, lg, ha, hq, -⟩ := withWrapper_spec (Q := fun es _ a => Q es a) hr hb
  exact ⟨_, es, _, lg, ha, writeFree_wrapperEnter s i wb, writeFree_wrapperLeave s i, hq⟩

theorem disable_acts (hr : s.WrapperReachable i d wb) (b : Word) :
    ∃ before es after lg, Acts s (s.withWrapper i wb (disableBody b wb)).2 (before ++ es ++ after) lg ∧
      WriteFree before ∧ WriteFree after ∧ ∃ lg', IsDisable s.params wb b es lg' :=
  withWrapper_acts (Q := fun es _ => ∃ lg', IsDisable s.params wb b es lg') hr fun u hp hpa => by
    obtain ⟨es, lg, hbody, hd⟩ := disableBody_body b wb u hpa
    exact ⟨es, lg, hbody, lg, hp ▸ hd⟩

theorem reset_acts (hr : s.WrapperReachable i d wb) (io ro : Word) :
    ∃ before es after lg, Acts s (s.withWrapper i wb (resetBody io ro wb)).2 (before ++ es ++ after) lg ∧
      WriteFree before ∧ WriteFree after ∧ ∃ lg', IsReset s.params wb io ro es lg' :=
  withWrapper_acts (Q := fun es _ => ∃ lg', IsReset s.params wb io ro es lg') hr fun u hp hpa => by
    obtain ⟨es, lg, hbody, hd⟩ := resetBody_body io ro wb u hpa
    exact ⟨es, lg, hbody, lg, hp ▸ hd⟩

theorem isUp_acts (hr : s.WrapperReachable i d wb) :
    ∃ before es after lg, Acts s (s.withWrapper i wb (isUpBody wb)).2 (before ++ es ++ after) lg ∧
      WriteFree before ∧ WriteFree after ∧ WriteFree es :=
  withWrapper_acts (Q := fun es _ => WriteFree es) hr fun u _ hpa => by
    obtain ⟨es, hbody, hcase⟩ := isUpBody_body wb u hpa
    refine ⟨es, [], hbody, ?_⟩
    rcases hcase with ⟨io, -, -, rfl⟩ | ⟨io, r, -, -, rfl⟩ <;> simp

theorem flags_acts (hr : s.WrapperReachable i d wb) (x : Addr) (mask value : Word) :
    ∃ before es after lg, Acts s (s.withWrapper i wb (flagsBody x mask value wb)).2 (before ++ es ++ after) lg ∧
      WriteFree before ∧ WriteFree after ∧ ∃ result, IsRmw .plain (wb + x) mask value es result :=
  withWrapper_acts (Q := fun es _ => ∃ result, IsRmw .plain (wb + x) mask value es result) hr fun u _ hpa => by
    obtain ⟨es, hbody, hrmw⟩ := rmw_body .plain (u.wrapperPa wb x) mask value u
    rw [hpa] at hrmw
    exact ⟨es, [], by unfold flagsBody; rw [hpa] at *; exact hbody, _, hrmw⟩

end Reachable

/-- ACCESS_REGISTER on a row is a masked operation at the core's own address, on each of its paths. -/
theorem access_acts {s : State} {j : Word} {d : CoreDescriptor} (hrow : s.row j = some d) (off mask value : Word) :
    ∃ before es after path result, Acts s (s.access j d off mask value).2 (before ++ es ++ after) [] ∧
      WriteFree before ∧ WriteFree after ∧ IsRmw path (d.primaryAddr + zext64 off) mask value es result := by
  unfold State.access
  cases hf : s.flat
  · simp only [Bool.false_eq_true, if_false]
    split
    · obtain ⟨es, hbody, hrmw⟩ := rmw_body .fast (d.primaryAddr + zext64 off) mask value s
      exact ⟨[], es, [], _, _, by simpa using hbody.toActs, writeFree_nil, writeFree_nil, hrmw⟩
    · have hreg : (s.irqMask.2.switchTo j).winReg = d.primaryAddr := by
        rw [switchTo_windowed (s := s.irqMask.2) hrow hf]
      obtain ⟨es, hbody, hrmw⟩ := rmw_body .plain ((s.irqMask.2.switchTo j).winReg + zext64 off) mask value
        (s.irqMask.2.switchTo j)
      obtain ⟨ha, -⟩ := withFocus_windowed (body := fun t => t.rmw .plain (t.winReg + zext64 off) mask value) hf hbody
      rw [hreg] at hrmw
      exact ⟨_, es, _, _, _, ha, writeFree_enterEvents s j, writeFree_leaveEvents s j, hrmw⟩
  · obtain ⟨hmap, -⟩ := mapCore_acts j d.primaryAddr s
    obtain ⟨es, hbody, hrmw⟩ := rmw_body .plain (d.primaryAddr + zext64 off) mask value (s.mapCore j d.primaryAddr)
    exact ⟨_, es, [], _, _, by simpa using hmap.trans hbody.toActs, writeFree_mapOnce _ _, writeFree_nil, hrmw⟩

/-! ## The reference device (D35) -/

/-- Core i has its wrapper at `wb`, a page of the reference device behind the bus, and no RESET is in progress. -/
structure State.WrapperOnDevice (s : State) (i : Word) (wb : Addr) (pages : List (BitVec 52)) : Prop where
  device : s.onReference pages
  wrapper : s.wrapperOf i = some wb
  page : ∃ p, wb = pageBase p
  mem : s.bus.mem.wf
  idle : s.resetting = none

namespace State.WrapperOnDevice

variable {s t : State} {i : Word} {wb : Addr} {pages : List (BitVec 52)} {es : List Event} {lg : List LogEntry}

/-- The registers of a wrapper are words. -/
theorem register_aligned (h : s.WrapperOnDevice i wb pages) {x : Addr} (hx : WordAligned x) :
    WordAligned (wb + x) := by
  obtain ⟨p, rfl⟩ := h.page
  exact (pageBase_aligned p).add hx

theorem resetCtrl_aligned (h : s.WrapperOnDevice i wb pages) : WordAligned (wb + Config.resetCtrl) :=
  h.register_aligned (by decide)

theorem ioCtrl_aligned (h : s.WrapperOnDevice i wb pages) : WordAligned (wb + Config.ioCtrl) :=
  h.register_aligned (by decide)

/-- Its `RESETCTRL` and `IOCTRL` answer what memory holds. -/
theorem busAnswer (h : s.WrapperOnDevice i wb pages) {x : Addr} (hx : x = Config.resetCtrl ∨ x = Config.ioCtrl) :
    s.busAnswer (wb + x) = s.bus.mem.readWord (wb + x) := by
  obtain ⟨p, rfl⟩ := h.page
  obtain ⟨hdev, hscript⟩ := h.device
  simp only [State.busAnswer, hscript, List.find?_nil, hdev]
  exact referenceAnswer_page pages _ p x (by rcases hx with hx | hx <;> simp [hx])

/-- The lifecycle state is a function of two words of memory. -/
theorem lifecycle (h : s.WrapperOnDevice i wb pages) : s.lifecycle i =
    lifecycleOf false (s.bus.mem.readWord (wb + Config.resetCtrl)) (s.bus.mem.readWord (wb + Config.ioCtrl)) := by
  rw [lifecycle_eq h.wrapper, h.busAnswer (.inl rfl), h.busAnswer (.inr rfl), h.idle]
  rfl

theorem acts (h : s.WrapperOnDevice i wb pages) (k : Acts s t es lg) : t.WrapperOnDevice i wb pages where
  device := ⟨k.device.trans h.device.1, k.script h.device.2⟩
  wrapper := by rw [State.wrapperOf, row_eq k.table]; exact h.wrapper
  page := h.page
  mem := by rw [k.mem]; exact replay_wf es h.mem
  idle := k.resetting.trans h.idle

/-- The lifecycle state after some events. -/
theorem lifecycle_after (h : s.WrapperOnDevice i wb pages) (k : Acts s t es lg) : t.lifecycle i =
    lifecycleOf false ((replay es s.bus.mem).readWord (wb + Config.resetCtrl))
      ((replay es s.bus.mem).readWord (wb + Config.ioCtrl)) := by
  rw [(h.acts k).lifecycle, k.mem]

/-- Events that leave the two words leave the state. -/
theorem lifecycle_kept (h : s.WrapperOnDevice i wb pages) (k : Acts s t es lg)
    (hrc : (replay es s.bus.mem).readWord (wb + Config.resetCtrl) = s.bus.mem.readWord (wb + Config.resetCtrl))
    (hio : (replay es s.bus.mem).readWord (wb + Config.ioCtrl) = s.bus.mem.readWord (wb + Config.ioCtrl)) :
    t.lifecycle i = s.lifecycle i := by rw [h.lifecycle_after k, h.lifecycle, hrc, hio]

/-- A read with no write before it answers what memory held at the start. -/
theorem read_eq (h : s.WrapperOnDevice i wb pages) (k : Acts s t es lg) {before after : List Event}
    {path : AccessPath} {x : Addr} {v : Word} (hx : x = Config.resetCtrl ∨ x = Config.ioCtrl)
    (hes : es = before ++ .memRead path (wb + x) v :: after) (hbefore : WriteFree before) :
    v = s.bus.mem.readWord (wb + x) := by
  obtain ⟨p, hp⟩ := h.page
  rw [k.answered h.device.2 before after path (wb + x) v hes]
  simp only [State.deviceAnswer, h.device.1, replay_of_writeFree hbefore, hp]
  exact referenceAnswer_page pages _ p x (by rcases hx with hx | hx <;> simp [hx])

end State.WrapperOnDevice

theorem ioCtrl_ne_resetCtrl (wb : Addr) : wb + Config.ioCtrl ≠ wb + Config.resetCtrl := by
  simp [Config.ioCtrl, Config.resetCtrl]

/-! ## What DISABLE and RESET leave in the two registers -/

section Registers

variable {p : Params} {wb : Addr} {m : Memory}

/-- DISABLE leaves a core already in reset alone, else puts it there (R343). -/
theorem IsDisable.resetCtrl {b : Word} {es : List Event} {lg : List LogEntry} (h : IsDisable p wb b es lg)
    (hm : m.wf) (hrc : WordAligned (wb + Config.resetCtrl)) (hio : WordAligned (wb + Config.ioCtrl)) :
    ∃ r rest, es = .memRead .plain (wb + Config.resetCtrl) r :: rest ∧
      (r.getLsbD 0 = true → rest = []) ∧
      (r.getLsbD 0 = false → (replay es m).readWord (wb + Config.resetCtrl) = 1#32) := by
  rcases h with ⟨r, hr, rfl, -⟩ | ⟨r, x, y, wait, tol, hr, hwait, rfl, -⟩
  · exact ⟨r, [], rfl, fun _ => rfl, fun hc => by cases hr.symm.trans hc⟩
  · refine ⟨r, _, rfl, fun hc => (by cases hr.symm.trans hc), fun _ => ?_⟩
    simp only [List.cons_append, replay_memRead, replay_append, replay_of_writeFree hwait.writeFree,
      replay_memWrite, replay_delay, replay_nil]
    rw [readWord_writeWord_other _ _ hio hrc (ioCtrl_ne_resetCtrl wb).symm, readWord_writeWord_same hm]

/-- The self-clear loop clears `RESETCTRL` if it makes a pass at all (R346). -/
theorem IsClearLoop.resetCtrl {n : Nat} {es : List Event} {lg : List LogEntry} {cleared : Bool}
    (h : IsClearLoop p wb n es lg cleared) (hm : m.wf) :
    (replay es m).readWord (wb + Config.resetCtrl) = if n = 0 then m.readWord (wb + Config.resetCtrl) else 0#32 := by
  induction n generalizing es lg m with
  | zero =>
    obtain ⟨rfl, -, -⟩ := h
    rfl
  | succ n ih =>
    obtain ⟨wait, tol, v, hwait, rest, restLg, rfl, -, hcase⟩ := h
    have hwrite := readWord_writeWord_same hm (wb + Config.resetCtrl) 0#32
    simp only [List.append_assoc, replay_append, replay_of_writeFree (IsWait.writeFree hwait), List.cons_append,
      List.nil_append, replay_memWrite, replay_memRead]
    rcases hcase with ⟨-, rfl, -⟩ | ⟨-, hloop⟩
    · simpa using hwrite
    · rw [ih hloop (writeWord_wf _ _ hm), hwrite]
      simp

/-- RESET leaves `RESETCTRL` clear if it may retry, else set, and `IOCTRL` with the clock on (R345). -/
theorem IsReset.registers {io ro : Word} {es : List Event} {lg : List LogEntry} (h : IsReset p wb io ro es lg)
    (hm : m.wf) (hrc : WordAligned (wb + Config.resetCtrl)) (hio : WordAligned (wb + Config.ioCtrl)) :
    (replay es m).readWord (wb + Config.resetCtrl) = (if p.resetRetries = 0 then 1#32 else 0#32) ∧
      (replay es m).readWord (wb + Config.ioCtrl) = io ||| 1#32 := by
  obtain ⟨w1, w2, w3, loop, t1, t2, t3, cleared, loopLg, y, h1, h2, h3, hloop, rfl, -⟩ := h
  have hwf : ((m.writeWord (wb + Config.resetCtrl) 1#32).writeWord (wb + Config.ioCtrl) (io ||| ro ||| 3#32)).wf :=
    writeWord_wf _ _ (writeWord_wf _ _ hm)
  simp only [replay_append, replay_of_writeFree h1.writeFree, replay_of_writeFree (IsWait.writeFree h2),
    replay_of_writeFree (IsWait.writeFree h3), replay_memWrite, replay_memRead, replay_delay, replay_nil]
  refine ⟨?_, readWord_writeWord_same (replay_wf _ hwf) _ _⟩
  rw [readWord_writeWord_other _ _ hio hrc (ioCtrl_ne_resetCtrl wb).symm, hloop.resetCtrl hwf,
    readWord_writeWord_other _ _ hio hrc (ioCtrl_ne_resetCtrl wb).symm, readWord_writeWord_same hm]

end Registers

end Sys2Proof.Machine

/-! PROOFS. The transitions of a core's lifecycle state (45_lifecycle.md R357), one lemma per command, and the
statement that collects them (O50). -/

namespace Sys2Proof.Machine

/-! ## One transition per command, on the reference device -/

section Transitions

variable {s t : State} {i : Word} {d : CoreDescriptor} {wb : Addr} {pages : List (BitVec 52)}

theorem lifecycle_respond (ws : List Word) (s : State) (i : Word) : (s.respond ws).lifecycle i = s.lifecycle i := rfl

theorem lifecycle_begin (s : State) (i : Word) : s.begin.lifecycle i = s.lifecycle i := rfl

/-- DISABLE leads to Disabled, and writes nothing in a core already there (R357). -/
theorem disable_transition (hready : s.ready) (hdev : s.WrapperOnDevice i wb pages) (hr : s.WrapperReachable i d wb)
    (b : Word) : ∃ t, exec (.disable i b) s = .next t ∧ t.lifecycle i = .disabled ∧
      (s.lifecycle i = .disabled → WriteFree t.commandTrace) := by
  obtain ⟨before, es, after, lg, ha, hbefore, hafter, lg', hd⟩ := disable_acts hr.begin b
  have hdev' : s.begin.WrapperOnDevice i wb pages := { hdev with }
  obtain ⟨r, rest, rfl, hin, hout⟩ := hd.resetCtrl hdev.mem hdev.resetCtrl_aligned hdev.ioCtrl_aligned
  have hread : r = s.bus.mem.readWord (wb + Config.resetCtrl) :=
    hdev'.read_eq (path := .plain) (after := rest ++ after) ha (.inl rfl) (by simp) hbefore
  have hafterLife := hdev'.lifecycle_after ha
  rw [replay_between hbefore hafter] at hafterLife
  refine ⟨_, exec_disable_reachable hready hr b, ?_, fun hdis => ?_⟩
  · refine hafterLife.trans (lifecycleOf_disabled ?_)
    cases hbit : r.getLsbD 0
    · exact (congrArg (·.getLsbD 0) (hout hbit)).trans rfl
    · rw [hin hbit, replay_memRead, replay_nil]
      exact hread ▸ hbit
  · rw [hdev.lifecycle] at hdis
    have hbit : r.getLsbD 0 = true := hread ▸ bit_of_lifecycleOf_disabled hdis
    have htrace := commandTrace_eq (s := s) (t := ((s.begin.withWrapper i wb (disableBody b wb)).2.respond [0#32]))
      ha.trace ha.traceMark
    rw [htrace, hin hbit]
    simp [hbefore, hafter]

/-- RESET leads to Enabled with a retry and `io[1]` clear, to Disabled with none (R348, R357). -/
theorem reset_transition (hready : s.ready) (hdev : s.WrapperOnDevice i wb pages) (hr : s.WrapperReachable i d wb)
    (io ro : Word) : ∃ t, exec (.reset i io ro) s = .next t ∧
      (0 < s.params.resetRetries → io.getLsbD 1 = false → t.lifecycle i = .enabled) ∧
      (s.params.resetRetries = 0 → t.lifecycle i = .disabled) := by
  obtain ⟨before, es, after, lg, ha, hbefore, hafter, lg', hreset⟩ := reset_acts hr.begin.whileResetting io ro
  have hdev' : s.begin.WrapperOnDevice i wb pages := { hdev with }
  have hafterLife := hdev'.lifecycle_after (whileResetting_acts
    (body := fun u => u.withWrapper i wb (resetBody io ro wb)) ha)
  have hregs := hreset.registers hdev.mem hdev.resetCtrl_aligned hdev.ioCtrl_aligned
  obtain ⟨hrc, hio⟩ : (replay es s.bus.mem).readWord (wb + Config.resetCtrl) =
      (if s.params.resetRetries = 0 then 1#32 else 0#32) ∧
      (replay es s.bus.mem).readWord (wb + Config.ioCtrl) = io ||| 1#32 := hregs
  rw [replay_between hbefore hafter, begin_bus, hrc, hio] at hafterLife
  refine ⟨_, exec_reset_reachable hready hr io ro, fun hretry h1 => ?_, fun hretry => ?_⟩
  · have hne : s.params.resetRetries ≠ 0 := by omega
    refine hafterLife.trans (lifecycleOf_enabled ?_ ?_ ?_)
    · rw [if_neg hne]; rfl
    · simp
    · rw [BitVec.getLsbD_or, h1]
      rfl
  · refine hafterLife.trans (lifecycleOf_disabled ?_)
    rw [if_pos hretry]; rfl

/-- CFLAGS clearing `CLOCK_EN` or setting `FORCE_CLOCK` leads from Enabled to Unknown (R357). -/
theorem cflags_transition (hready : s.ready) (hdev : s.WrapperOnDevice i wb pages) (hr : s.WrapperReachable i d wb)
    {mask value : Word} (hen : s.lifecycle i = .enabled)
    (hg : s.params.guarded s.cfg.family d.coreId = false)
    (hbits : (mask.getLsbD 0 = true ∧ value.getLsbD 0 = false) ∨ value.getLsbD 1 = true)
    (h : exec (.cflags i mask value) s = .next t) : t.lifecycle i = .unknown := by
  obtain ⟨before, es, after, lg, ha, hbefore, hafter, result, hrmw⟩ := flags_acts hr.begin Config.ioCtrl mask value
  have hdev' : s.begin.WrapperOnDevice i wb pages := { hdev with }
  have hafterLife := hdev'.lifecycle_after ha
  rw [replay_between hbefore hafter, begin_bus, hrmw.readWord_other hdev.ioCtrl_aligned hdev.resetCtrl_aligned
    (ioCtrl_ne_resetCtrl wb).symm] at hafterLife
  rw [hdev.lifecycle] at hen
  obtain ⟨hrc, -, -⟩ := bits_of_lifecycleOf_enabled hen
  have hnext := (flagsCommand_unguarded hready hr hg Config.ioCtrl mask value).symm.trans h
  cases hnext
  refine hafterLife.trans (lifecycleOf_unknown hrc ?_)
  rcases hrmw with ⟨hzero, -⟩ | ⟨-, w, rfl⟩
  · have hmask : ∀ k, mask.getLsbD k = false ∧ value.getLsbD k = false := by
      intro k
      have hk := congrArg (BitVec.getLsbD · k) hzero
      simpa only [BitVec.getLsbD_or, BitVec.getLsbD_zero, Bool.or_eq_false_iff] using hk
    rcases hbits with ⟨hm, -⟩ | hv
    · cases (hmask 0).1.symm.trans hm
    · cases (hmask 1).2.symm.trans hv
  · simp only [replay_memRead, replay_memWrite, replay_nil, readWord_writeWord_same hdev.mem]
    rcases hbits with ⟨hm, hv⟩ | hv
    · left
      simp only [BitVec.getLsbD_or, BitVec.getLsbD_and, BitVec.getLsbD_not, hm, hv]
      simp
    · right
      rw [BitVec.getLsbD_or, hv, Bool.or_true]

/-- IS_UP leaves the state (R357). -/
theorem isUp_transition (hready : s.ready) (hdev : s.WrapperOnDevice i wb pages) (hr : s.WrapperReachable i d wb)
    (h : exec (.isUp i) s = .next t) : t.lifecycle i = s.lifecycle i := by
  obtain ⟨before, es, after, lg, ha, hbefore, hafter, hes⟩ := isUp_acts hr.begin
  have hdev' : s.begin.WrapperOnDevice i wb pages := { hdev with }
  have hmem : replay (before ++ es ++ after) s.begin.bus.mem = s.begin.bus.mem := by
    rw [replay_between hbefore hafter, replay_of_writeFree hes]
  cases (execIsUp_reachable hready hr).symm.trans h
  rw [lifecycle_respond, ← lifecycle_begin s]
  exact hdev'.lifecycle_kept ha (by rw [hmem]) (by rw [hmem])

/-- A masked operation between events that write nothing, on another register than the two, leaves the state. -/
theorem rmw_transition (hdev : s.WrapperOnDevice i wb pages) {before es after : List Event} {lg : List LogEntry}
    (ha : Acts s t (before ++ es ++ after) lg) (hbefore : WriteFree before) (hafter : WriteFree after)
    {path : AccessPath} {pa : Addr} {mask value result : Word} (hrmw : IsRmw path pa mask value es result)
    (hpa : WordAligned pa) (hrc : pa ≠ wb + Config.resetCtrl) (hio : pa ≠ wb + Config.ioCtrl) :
    t.lifecycle i = s.lifecycle i := by
  refine hdev.lifecycle_kept ha ?_ ?_
  · rw [replay_between hbefore hafter, hrmw.readWord_other hpa hdev.resetCtrl_aligned hrc.symm]
  · rw [replay_between hbefore hafter, hrmw.readWord_other hpa hdev.ioCtrl_aligned hio.symm]

/-- SFLAGS leaves the state (R357). -/
theorem sflags_transition (hready : s.ready) (hdev : s.WrapperOnDevice i wb pages) (hr : s.WrapperReachable i d wb)
    {mask value : Word} (h : exec (.sflags i mask value) s = .next t) : t.lifecycle i = s.lifecycle i := by
  cases hg : s.params.guarded s.cfg.family d.coreId
  · obtain ⟨before, es, after, lg, ha, hbefore, hafter, result, hrmw⟩ :=
      flags_acts hr.begin Config.ioStatus mask value
    have hdev' : s.begin.WrapperOnDevice i wb pages := { hdev with }
    cases (flagsCommand_unguarded hready hr hg Config.ioStatus mask value).symm.trans h
    rw [lifecycle_respond, ← lifecycle_begin s]
    exact rmw_transition hdev' ha hbefore hafter hrmw (hdev.register_aligned (by decide))
      (by simp [Config.ioStatus, Config.resetCtrl]) (by simp [Config.ioStatus, Config.ioCtrl])
  · cases (flagsCommand_guarded hready hr hg Config.ioStatus mask value).symm.trans h
    rfl

theorem offsetOk_aligned {off : Word} (h : offsetOk off = true) : WordAligned (zext64 off) := by
  simp only [offsetOk, Bool.and_eq_true, decide_eq_true_eq] at h
  have hlt := off.isLt
  simp only [WordAligned, zext64, BitVec.toNat_setWidth]
  omega

/-- ACCESS_REGISTER on a row either answers RangeError or makes its access. -/
theorem execAccessRegister_row {j off mask value : Word} {dj : CoreDescriptor} (hrow : s.row j = some dj)
    (h : execAccessRegister j off mask value s = .next t) :
    ∃ ws, (t = s.begin.respond ws) ∨
      (offsetOk off = true ∧ t = (s.begin.access j dj off mask value).2.respond ws) := by
  obtain ⟨-, rfl⟩ := command_next h
  simp only [row_begin, hrow]
  split
  · exact ⟨_, .inr ⟨‹_›, rfl⟩⟩
  · exact ⟨_, .inl rfl⟩

/-- ACCESS_REGISTER of another register than `RESETCTRL` and `IOCTRL` leaves the state (R357). -/
theorem access_transition (hdev : s.WrapperOnDevice i wb pages) {j off mask value : Word} {dj : CoreDescriptor}
    (hrow : s.row j = some dj) (hal : WordAligned dj.primaryAddr)
    (hrc : dj.primaryAddr + zext64 off ≠ wb + Config.resetCtrl)
    (hio : dj.primaryAddr + zext64 off ≠ wb + Config.ioCtrl)
    (h : exec (.accessRegister j off mask value) s = .next t) : t.lifecycle i = s.lifecycle i := by
  have hdev' : s.begin.WrapperOnDevice i wb pages := { hdev with }
  obtain ⟨ws, rfl | ⟨hoff, rfl⟩⟩ := execAccessRegister_row hrow h
  · rfl
  · obtain ⟨before, es, after, path, result, ha, hbefore, hafter, hrmw⟩ :=
      access_acts (s := s.begin) (j := j) hrow off mask value
    rw [lifecycle_respond, ← lifecycle_begin s]
    exact rmw_transition hdev' ha hbefore hafter hrmw (hal.add (offsetOk_aligned hoff)) hrc hio

end Transitions

/-- A core whose RESET is in progress is Resetting (R58). -/
theorem lifecycle_resetting {s : State} {i : Word} {wb : Addr} (hw : s.wrapperOf i = some wb)
    (h : s.resetting = some i) : s.lifecycle i = .resetting := by
  rw [lifecycle_eq hw, lifecycleOf_bits, h, beq_self_eq_true, if_pos rfl]

theorem whileResetting_idle {α : Type} {s : State} (h : s.resetting = none) (i : Word) (body : State → α × State) :
    (s.whileResetting i body).2 = { (body { s with resetting := some i }).2 with resetting := none } := by
  unfold State.whileResetting
  simp only [h]

/-- RESET on any bus: its events with the core Resetting, and a reset bit that stays stuck leaves Disabled (R357). -/
theorem reset_run {s : State} {i : Word} {d : CoreDescriptor} {wb : Addr} (hready : s.ready)
    (hidle : s.resetting = none) (hr : s.WrapperReachable i d wb) (io ro : Word) :
    ∃ t, exec (.reset i io ro) s = .next t ∧ t.resetting = none ∧
      ({ s.begin with resetting := some i }).lifecycle i = .resetting ∧
      t = State.respond [0#32] { (State.withWrapper i wb (resetBody io ro wb)
        { s.begin with resetting := some i }).2 with resetting := none } ∧
      ((t.busAnswer (wb + 0x800#64)).getLsbD 0 = true → t.lifecycle i = .disabled) := by
  have hwrap := wrapperOf_eq hr.row hr.wrapper
  have hexec := exec_reset_reachable hready hr io ro
  rw [whileResetting_idle (s := s.begin) hidle] at hexec
  obtain ⟨u, ws, es, lg, ht, ha, -⟩ := (exec_commanded (i := .reset i io ro) rfl nofun nofun rfl hexec).acts
  refine ⟨_, hexec, rfl, ?_, rfl, fun hbit => ?_⟩
  · exact lifecycle_resetting (wb := wb) hwrap rfl
  · rw [ht] at hbit ⊢
    have hwrap' : (u.respond ws).wrapperOf i = some wb := by
      rw [State.wrapperOf, row_eq (t := u.respond ws) (s := s) ha.table]
      exact hwrap
    have hidle' : (u.respond ws).resetting = none := ha.resetting.trans hidle
    rw [lifecycle_eq hwrap', hidle']
    exact lifecycleOf_disabled hbit

/-- The state, as R58 gives it and as the block knows it. -/
theorem lifecycle_and_known {s : State} {i : Word} {wb : Addr} (hw : s.wrapperOf i = some wb) :
    s.lifecycle i =
      (if s.resetting = some i then .resetting
       else if (s.busAnswer (wb + 0x800#64)).getLsbD 0 then .disabled
       else if (s.busAnswer (wb + 0x408#64)).getLsbD 0 && !(s.busAnswer (wb + 0x408#64)).getLsbD 1 then .enabled
       else .unknown) ∧
    (s.resetting = none →
      (∀ path pa v, .memRead path pa v ∈ s.trace.drop s.attachMark →
        pa ≠ wb + 0x800#64 ∧ pa ≠ wb + 0x408#64) →
      s.knownLifecycle i = .unknown) ∧
    ((∃ path v, .memRead path (wb + 0x800#64) v ∈ s.trace.drop s.attachMark ∨
        .memRead path (wb + 0x408#64) v ∈ s.trace.drop s.attachMark) →
      s.knownLifecycle i = s.lifecycle i) := by
  refine ⟨?_, fun hidle hnone => ?_, fun ⟨path, v, hread⟩ => ?_⟩
  · rw [lifecycle_eq hw, lifecycleOf_bits]
    simp only [beq_iff_eq]
    rfl
  · have hunread : s.hasReadWrapper wb = false := by
      rw [← Bool.not_eq_true, hasReadWrapper_iff]
      rintro ⟨path, pa, v, hmem, hpa⟩
      obtain ⟨hrc, hio⟩ := hnone path pa v hmem
      rcases hpa with hpa | hpa
      · exact hrc hpa
      · exact hio hpa
    rw [knownLifecycle_eq hw, hidle, hunread]
    rfl
  · have hreads : s.hasReadWrapper wb = true := by
      rw [hasReadWrapper_iff]
      rcases hread with hread | hread
      · exact ⟨path, _, v, hread, .inl rfl⟩
      · exact ⟨path, _, v, hread, .inr rfl⟩
    rw [knownLifecycle_eq hw, hreads, Bool.or_true, if_pos rfl]

/-- Settles O50, from the transition of each command. -/
theorem lifecycleStates : Obligations.LifecycleStates := by
  refine ⟨fun s i d wb hrow hw => lifecycle_and_known (wrapperOf_eq hrow hw),
    fun s i d wb hready hidle hr io ro => reset_run hready hidle hr io ro,
    fun s i d wb pages hready hidle hon hwrappers hmem hr => ?_⟩
  obtain ⟨p, -, hp⟩ := hwrappers d (List.mem_of_getElem? hr.row) wb hr.wrapper
  have hdev : s.WrapperOnDevice i wb pages := ⟨hon, wrapperOf_eq hr.row hr.wrapper, ⟨p, hp⟩, hmem, hidle⟩
  refine ⟨disable_transition hready hdev hr, reset_transition hready hdev hr,
    fun mask value t hen hg hbits h => ?_, fun t h => isUp_transition hready hdev hr h,
    fun mask value t h => sflags_transition hready hdev hr h,
    fun j dj off mask value t hrow hal hrc hio h => access_transition hdev hrow hal hrc hio h⟩
  refine cflags_transition hready hdev hr hen ?_ hbits h
  simpa [Params.guarded] using hg

end Sys2Proof.Machine

/-! PROOFS. What a stream read and a masked access are as commands (40_stream_reader.md R150, R151,
44_masked_access.md R311 to R315): a step of a scan reads the word at `streamPa`; an access on the fast path is bus
work at the core's own address, which no focus bears on. -/

namespace Sys2Proof.Machine

/-! ## A step of a scan in progress (R150, R151) -/

theorem step_scanning {s : State} (hbusy : s.busy = true) : step s =
    if s.scan.lim ≤ s.scan.cur then .next (s.parseFail .noEnd)
    else exec (decodeStream s.scan.pos.position s.advance.1) s.advance.2 := by
  unfold step
  rw [fetch_scanning hbusy]
  unfold fetchStream
  by_cases hlim : s.scan.lim ≤ s.scan.cur
  · simp only [if_pos hlim]
  · simp only [if_neg hlim]

theorem streamPa_eq (s : State) : s.streamPa =
    (if s.cfg.transport = .flat then zext64 s.scan.eromBase else s.winReg) + 4#64 * zext64 s.scan.cur := by
  simp only [State.streamPa, flat_iff]

/-- Settles O6: the step of a scan (`step_scanning`) on each side of the limit, the word read at `streamPa`. -/
theorem stepReadsStreamWord : Obligations.StepReadsStreamWord := by
  intro s hbusy
  rw [step_scanning hbusy]
  refine ⟨fun hlim => if_pos hlim, fun hlt => ?_⟩
  intro pa w
  have hpa : pa = s.streamPa := (streamPa_eq s).symm
  have hw : w = s.advance.1 := congrArg s.busAnswer hpa
  rw [if_neg (BitVec.not_le.mpr hlt), hw, hpa]
  rfl

/-! ## What a command leaves alone -/

/-- A command's body, between its beginning and its response, keeps the session. -/
theorem Acts.sameSession {s u : State} {es : List Event} {lg : List LogEntry} (h : Acts s.begin u es lg)
    (ws : List Word) : s.SameSession (u.respond ws) :=
  ⟨h.attached, h.busy, h.cfg, h.table, h.bws, h.oob, h.scanStatus, h.scan, h.device, h.commands, h.params,
    h.resetting, h.attachMark, h.traceMark⟩

theorem Body.sameFocus {s u : State} {es : List Event} {lg : List LogEntry} (h : Body s.begin u es lg)
    (ws : List Word) : s.SameFocus (u.respond ws) :=
  ⟨h.focus, h.still.1, h.still.2, h.irqSaved⟩

/-- A masked operation writes its own word or nothing, and memory outside the word stays. -/
theorem IsRmw.sameMemoryOutside {path : AccessPath} {pa : Addr} {mask value : Word} {es : List Event} {result : Word}
    (h : IsRmw path pa mask value es result) {s t : State} (hmem : t.bus.mem = replay es s.bus.mem) :
    s.SameMemoryOutside [pa] t := by
  intro a ha
  have hout : a ∉ wordBytes pa := ha pa (List.mem_singleton_self pa)
  rw [hmem]
  rcases h.replay_eq s.bus.mem with heq | ⟨v, heq⟩
  · rw [heq]
  · rw [heq, readByte_writeWord_other _ pa v hout]

/-- With mask and value 0 it writes nothing (R316). -/
theorem IsRmw.writeFree {path : AccessPath} {pa : Addr} {mask value : Word} {es : List Event} {result : Word}
    (h : IsRmw path pa mask value es result) (hzero : mask ||| value = 0#32) : WriteFree es := by
  rcases h with ⟨-, rfl⟩ | ⟨hne, -⟩
  · simp
  · exact absurd hzero hne

/-- A masked operation does not look at FocusState. -/
theorem rmw_withFocusState (path : AccessPath) (pa : Addr) (mask value : Word) (s : State) (f : Focus) :
    State.rmw path pa mask value { s with focus := f } =
      ((s.rmw path pa mask value).1, { (s.rmw path pa mask value).2 with focus := f }) := by
  unfold State.rmw
  split <;> rfl

/-! ## ACCESS_REGISTER on its three paths (R311 to R314) -/

section Access

variable {s : State} {i off mask value : Word} {d : CoreDescriptor}

theorem offsetOk_iff : offsetOk off = true ↔ off.toNat < 0x1000 ∧ off.toNat % 4 = 0 := by
  have hwide : (zext64 off).toNat = off.toNat :=
    BitVec.toNat_setWidth_of_le (by decide)
  simp [offsetOk, hwide, Config.coreWindowSize]

/-- ACCESS_REGISTER of a ready block on a row, its offset in range. -/
theorem exec_accessRegister_ready (hready : s.ready) (hrow : s.row i = some d) (hoff : offsetOk off = true) :
    exec (.accessRegister i off mask value) s = .next ((s.begin.access i d off mask value).2.respond
      (answer32 (s.begin.access i d off mask value).1 .ok)) := by
  change execAccessRegister i off mask value s = _
  unfold execAccessRegister
  simp only [command_ready _ s hready, row_begin, hrow, hoff, if_true]

theorem access_flat (hflat : s.flat = true) : s.access i d off mask value =
    (s.mapCore i d.primaryAddr).rmw .plain (d.primaryAddr + zext64 off) mask value := by
  simp only [State.access, hflat, if_true]

theorem access_fast (hflat : s.flat = false) (hfast : s.fastPathCore i = true) : s.access i d off mask value =
    s.rmw .fast (d.primaryAddr + zext64 off) mask value := by
  simp only [State.access, hflat, hfast, if_true, Bool.false_eq_true, if_false]

theorem access_slow (hflat : s.flat = false) (hfast : s.fastPathCore i = false) : s.access i d off mask value =
    s.withFocus i (fun t => t.rmw .plain (t.winReg + zext64 off) mask value) := by
  simp only [State.access, State.slowAccess, hflat, hfast, Bool.false_eq_true, if_false]

/-- The lowest index with a `coreId` that has a fast-path entry is a fast-path core (R314). -/
theorem fastPathCore_of_lowest (hflat : s.flat = false) (hrow : s.row i = some d)
    (hentry : ∃ e ∈ s.cfg.fastPath, e.1 = d.coreId.setWidth 32)
    (hlowest : ∀ (k : Nat) (c : CoreDescriptor), k < i.toNat → s.table[k]? = some c → c.coreId ≠ d.coreId) :
    s.fastPathCore i = true := by
  have hlisted : s.cfg.fastPath.any (fun e => e.1 == d.coreId.setWidth 32) = true := by
    simpa using hentry
  obtain ⟨hlt, hget⟩ := List.getElem?_eq_some_iff.mp hrow
  have hindex : s.table.findIdx? (fun c => c.coreId == d.coreId) = some i.toNat := by
    rw [List.findIdx?_eq_some_iff_getElem]
    refine ⟨hlt, by simp [hget], fun k hk => ?_⟩
    simpa using hlowest k _ hk (List.getElem?_eq_getElem (Nat.lt_trans hk hlt))
  simp only [State.fastPathCore, hrow, hflat, hlisted, hindex, beq_self_eq_true, Bool.not_false, Bool.and_self]

/-- ACCESS_REGISTER on the fast path is the masked operation at the core's own address (R314, R315). -/
theorem exec_accessRegister_fast (hready : s.ready) (hrow : s.row i = some d) (hoff : offsetOk off = true)
    (hflat : s.flat = false) (hfast : s.fastPathCore i = true) :
    exec (.accessRegister i off mask value) s = .next
      ((s.begin.rmw .fast (d.primaryAddr + zext64 off) mask value).2.respond
        (answer32 (s.begin.rmw .fast (d.primaryAddr + zext64 off) mask value).1 .ok)) := by
  rw [exec_accessRegister_ready hready hrow hoff, access_fast (s := s.begin) hflat hfast]

end Access

/-- Settles O37: on the fast path the command is the masked operation alone (`exec_accessRegister_fast`). -/
theorem accessFast : Obligations.AccessFast := by
  intro s i off mask value d hready hwindowed hrow hlt hal hentry hlowest
  have hflat : s.flat = false := by rw [← Bool.not_eq_true, flat_iff]; exact hwindowed
  have hfast : s.fastPathCore i = true := fastPathCore_of_lowest hflat hrow hentry hlowest
  have hoff : offsetOk off = true := offsetOk_iff.mpr ⟨hlt, hal⟩
  obtain ⟨es, hbody, hrmw⟩ := rmw_body .fast (d.primaryAddr + zext64 off) mask value s.begin
  refine ⟨_, es, _, exec_accessRegister_fast hready hrow hoff hflat hfast, rfl, hrmw, hbody.trace, hbody.mapReg,
    hbody.mapWrap, hbody.log.trans (List.append_nil _), hbody.toActs.sameSession _, hbody.sameFocus _,
    hrmw.sameMemoryOutside hbody.mem, fun hzero => ?_, fun f => ?_⟩
  · exact hbody.mem.trans (replay_of_writeFree (hrmw.writeFree hzero) _)
  · exact (exec_accessRegister_fast (s := { s with focus := f }) hready hrow hoff hflat hfast).trans
      (congrArg (fun r : Word × State => Host.Outcome.next (r.2.respond (answer32 r.1 .ok)))
        (rmw_withFocusState .fast (d.primaryAddr + zext64 off) mask value s.begin f))

end Sys2Proof.Machine

/-! PROOFS. Where the accesses of a list of events fall (20_memory.md R75, R80, R81). `AccessesOk` threads the window
bases through the events; an access is where it should be if it is to a register of an aligned page (`Event.InPage`)
at which a window stands, or on Flat. -/

namespace Sys2Proof.Machine

/-! ## Events, the windows threaded through them -/

/-- The path and the address of a bus access. -/
def Event.access : Event → Option (AccessPath × Addr)
  | .memRead path pa _ | .memWrite path pa _ => some (path, pa)
  | .winSet _ _ | .map _ _ | .delay _ | .irqMask _ | .irqRestore _ => none

@[simp] theorem access_memRead (path : AccessPath) (pa : Addr) (v : Word) :
    (Event.memRead path pa v).access = some (path, pa) := rfl
@[simp] theorem access_memWrite (path : AccessPath) (pa : Addr) (v : Word) :
    (Event.memWrite path pa v).access = some (path, pa) := rfl
@[simp] theorem access_winSet (w : Window) (base : Addr) : (Event.winSet w base).access = none := rfl
@[simp] theorem access_map (pa size : Addr) : (Event.map pa size).access = none := rfl
@[simp] theorem access_delay (n : Nat) : (Event.delay n).access = none := rfl
@[simp] theorem access_irqMask (n : Nat) : (Event.irqMask n).access = none := rfl
@[simp] theorem access_irqRestore (n : Nat) : (Event.irqRestore n).access = none := rfl

/-- Every access of these events is where R75, R80 and R81 ask, the windows standing at `reg` and `wrap` before
them. -/
def AccessesOk (flat : Bool) : Addr → Addr → List Event → Prop
  | _, _, [] => True
  | reg, wrap, e :: rest =>
    (∀ path pa, e.access = some (path, pa) → AccessOk flat reg wrap [] path pa) ∧
      AccessesOk flat (e.regBase.getD reg) (e.wrapBase.getD wrap) rest

/-- None of these events is a bus access. -/
def AccessFree (es : List Event) : Prop := ∀ e ∈ es, e.access = none

@[simp] theorem accessFree_nil : AccessFree [] := nofun

@[simp] theorem accessFree_cons (e : Event) (es : List Event) :
    AccessFree (e :: es) ↔ e.access = none ∧ AccessFree es := List.forall_mem_cons

@[simp] theorem accessFree_append (a b : List Event) : AccessFree (a ++ b) ↔ AccessFree a ∧ AccessFree b :=
  List.forall_mem_append

section Events

variable {flat : Bool} {reg wrap : Addr}

@[simp] theorem accessesOk_nil : AccessesOk flat reg wrap [] := trivial

theorem accessesOk_append (a b : List Event) : AccessesOk flat reg wrap (a ++ b) ↔
    AccessesOk flat reg wrap a ∧
      AccessesOk flat (lastBase Event.regBase a reg) (lastBase Event.wrapBase a wrap) b := by
  induction a generalizing reg wrap with
  | nil => simp [lastBase]
  | cons e rest ih => simp only [List.cons_append, AccessesOk, lastBase, ih, and_assoc]

/-- The access at any place in the events, the windows standing where the events before it set them. -/
theorem AccessesOk.accessOk {before after : List Event} {e : Event} {path : AccessPath} {pa : Addr}
    (h : AccessesOk flat reg wrap (before ++ e :: after)) (he : e.access = some (path, pa)) :
    AccessOk flat reg wrap before path pa := by
  obtain ⟨-, hhere, -⟩ := (accessesOk_append before (e :: after)).mp h
  exact hhere path pa he

theorem AccessFree.accessesOk {es : List Event} (h : AccessFree es) : AccessesOk flat reg wrap es := by
  induction es generalizing reg wrap with
  | nil => trivial
  | cons e rest ih =>
    obtain ⟨he, hrest⟩ := (accessFree_cons e rest).mp h
    exact ⟨fun _ _ hsome => (nomatch he.symm.trans hsome), ih hrest⟩

/-- What stands after the last access does not matter. -/
theorem AccessesOk.append_free {a b : List Event} (h : AccessesOk flat reg wrap a) (hb : AccessFree b) :
    AccessesOk flat reg wrap (a ++ b) := (accessesOk_append a b).mpr ⟨h, hb.accessesOk⟩

/-- What stands before the first access sets the windows. -/
theorem AccessFree.append_ok {a b : List Event} (ha : AccessFree a)
    (hb : AccessesOk flat (lastBase Event.regBase a reg) (lastBase Event.wrapBase a wrap) b) :
    AccessesOk flat reg wrap (a ++ b) := (accessesOk_append a b).mpr ⟨ha.accessesOk, hb⟩

/-! ## The registers of a page -/

/-- An offset at which a window is accessed (R75, R80). -/
def WindowOffset (off : Addr) : Prop := off.toNat < Config.windowSize.toNat ∧ WordAligned off

/-- If this event is an access, it is a plain one to a register of the page at `base`; and it programs no window. -/
def Event.InPage (base : Addr) (e : Event) : Prop :=
  e.regBase = none ∧ e.wrapBase = none ∧
    ∀ path pa, e.access = some (path, pa) → path = .plain ∧ ∃ off, WindowOffset off ∧ pa = base + off

/-- Every access of these events is a plain one to a register of the page at `base`, and no window is programmed. -/
def AllInPage (base : Addr) (es : List Event) : Prop := ∀ e ∈ es, e.InPage base

@[simp] theorem allInPage_nil (base : Addr) : AllInPage base [] := nofun

@[simp] theorem allInPage_cons {base : Addr} (e : Event) (es : List Event) :
    AllInPage base (e :: es) ↔ e.InPage base ∧ AllInPage base es := List.forall_mem_cons

@[simp] theorem allInPage_append {base : Addr} (a b : List Event) :
    AllInPage base (a ++ b) ↔ AllInPage base a ∧ AllInPage base b := List.forall_mem_append

/-- A window that stands at the page, or Flat: an access to a register of an aligned page is where it should be. -/
theorem accessOk_page {base off : Addr} (hbase : WordAligned base) (hoff : WindowOffset off)
    (hwindow : flat = false → base = reg ∨ base = wrap) : AccessOk flat reg wrap [] .plain (base + off) := by
  obtain ⟨hlt, hal⟩ := hoff
  refine ⟨hbase.add hal, fun _ => rfl, fun hflat _ => ⟨off, hlt, hal, ?_⟩⟩
  rcases hwindow hflat with rfl | rfl
  · exact .inl rfl
  · exact .inr rfl

theorem accessesOk_page {base : Addr} {es : List Event} (hbase : WordAligned base)
    (hwindow : flat = false → base = reg ∨ base = wrap) (h : AllInPage base es) :
    AccessesOk flat reg wrap es := by
  induction es with
  | nil => trivial
  | cons e rest ih =>
    obtain ⟨⟨hreg, hwrap, he⟩, hrest⟩ := (allInPage_cons e rest).mp h
    refine ⟨fun path pa hsome => ?_, ?_⟩
    · obtain ⟨rfl, off, hoff, rfl⟩ := he path pa hsome
      exact accessOk_page hbase hoff hwindow
    · rw [hreg, hwrap]
      exact ih hrest

/-- One read. -/
theorem accessesOk_memRead {path : AccessPath} {pa : Addr} {v : Word} (h : AccessOk flat reg wrap [] path pa) :
    AccessesOk flat reg wrap [.memRead path pa v] := ⟨fun _ _ hsome => by cases hsome; exact h, trivial⟩

/-- A masked operation makes its accesses at one address. -/
theorem IsRmw.accessesOk {path : AccessPath} {pa : Addr} {mask value : Word} {es : List Event} {result : Word}
    (h : IsRmw path pa mask value es result) (hpa : AccessOk flat reg wrap [] path pa) :
    AccessesOk flat reg wrap es := by
  rcases h with ⟨-, rfl⟩ | ⟨-, w, rfl⟩
  · exact accessesOk_memRead hpa
  · have hsame : ∀ path' pa', some (path, pa) = some (path', pa') → AccessOk flat reg wrap [] path' pa' :=
      fun _ _ hsome => by cases hsome; exact hpa
    exact ⟨hsame, hsame, hsame, trivial⟩

end Events

section Pages

variable {base off : Addr} {v : Word}

@[simp] theorem inPage_memRead (h : WindowOffset off) : (Event.memRead .plain (base + off) v).InPage base :=
  ⟨rfl, rfl, fun _ _ hsome => by cases hsome; exact ⟨rfl, off, h, rfl⟩⟩

@[simp] theorem inPage_memWrite (h : WindowOffset off) : (Event.memWrite .plain (base + off) v).InPage base :=
  ⟨rfl, rfl, fun _ _ hsome => by cases hsome; exact ⟨rfl, off, h, rfl⟩⟩

@[simp] theorem inPage_delay (n : Nat) : (Event.delay n).InPage base := ⟨rfl, rfl, nofun⟩

@[simp] theorem inPage_map (pa size : Addr) : (Event.map pa size).InPage base := ⟨rfl, rfl, nofun⟩

/-! The registers of R45, each inside its page. -/

@[simp] theorem windowOffset_ioCtrl : WindowOffset Config.ioCtrl := ⟨by decide, by decide⟩
@[simp] theorem windowOffset_ioStatus : WindowOffset Config.ioStatus := ⟨by decide, by decide⟩
@[simp] theorem windowOffset_resetCtrl : WindowOffset Config.resetCtrl := ⟨by decide, by decide⟩
@[simp] theorem windowOffset_resetStatus : WindowOffset Config.resetStatus := ⟨by decide, by decide⟩
@[simp] theorem windowOffset_errLogCtrl : WindowOffset Config.errLogCtrl := ⟨by decide, by decide⟩
@[simp] theorem windowOffset_errLogDone : WindowOffset Config.errLogDone := ⟨by decide, by decide⟩
@[simp] theorem windowOffset_errLogStatus : WindowOffset Config.errLogStatus := ⟨by decide, by decide⟩

end Pages

end Sys2Proof.Machine

/-! PROOFS. The accesses of the bodies of the commands are to registers of one page (45_lifecycle.md,
46_timeout_monitor.md), and those of the legacy walk to words of the page at which REG stands (41_topology_scan.md R230
to R235). -/

namespace Sys2Proof.Machine

/-! ## What a command does at the registers of a page -/

section Bodies

variable {p : Params} {base : Addr} {es : List Event}

theorem allInPage_pollEvents (period : Nat) {off : Addr} (hoff : WindowOffset off) (vs : List Word) :
    AllInPage base (pollEvents period (base + off) vs) := by
  induction vs with
  | nil => simp [pollEvents]
  | cons v rest ih =>
    cases rest with
    | nil => simp [pollEvents, hoff]
    | cons w rest => simpa [pollEvents, hoff] using ih

theorem IsWait.allInPage {period maxPolls : Nat} {drained : Bool}
    (h : IsWait period maxPolls (base + Config.resetStatus) es drained) : AllInPage base es := by
  obtain ⟨vs, last, rfl, -⟩ := h
  exact allInPage_pollEvents period windowOffset_resetStatus _

theorem IsShortWait.allInPage {tolerated : Bool} (h : IsShortWait p (base + Config.resetStatus) es tolerated) :
    AllInPage base es := IsWait.allInPage h

theorem IsTwoTierWait.allInPage {tolerated : Bool} (h : IsTwoTierWait p (base + Config.resetStatus) es tolerated) :
    AllInPage base es := by
  rcases h with ⟨-, hshort⟩ | ⟨short, long, rfl, hshort, hlong⟩
  · exact hshort.allInPage
  · exact (allInPage_append _ _).mpr ⟨hshort.allInPage, hlong.allInPage⟩

/-- DisableBody (R343). -/
theorem IsDisable.allInPage {ioBits : Word} {lg : List LogEntry} (h : IsDisable p base ioBits es lg) :
    AllInPage base es := by
  rcases h with ⟨r, -, rfl, -⟩ | ⟨r, x, y, wait, tolerated, -, hwait, rfl, -⟩
  · simp
  · simp [hwait.allInPage]

/-- The reset self-clear loop (R346). -/
theorem IsClearLoop.allInPage {n : Nat} {lg : List LogEntry} {cleared : Bool}
    (h : IsClearLoop p base n es lg cleared) : AllInPage base es := by
  induction n generalizing es lg with
  | zero =>
    obtain ⟨rfl, -⟩ := h
    simp
  | succ n ih =>
    obtain ⟨wait, tolerated, v, hwait, rest, restLg, rfl, -, hrest⟩ := h
    have hpass : AllInPage base rest := by
      rcases hrest with ⟨-, rfl, -⟩ | ⟨-, hrest⟩
      · simp
      · exact ih hrest
    simp [hwait.allInPage, hpass]

/-- ResetBody (R345). -/
theorem IsReset.allInPage {io ro : Word} {lg : List LogEntry} (h : IsReset p base io ro es lg) :
    AllInPage base es := by
  obtain ⟨w1, w2, w3, loop, t1, t2, t3, cleared, loopLg, y, h1, h2, h3, hloop, rfl, -⟩ := h
  simp [h1.allInPage, h2.allInPage, h3.allInPage, hloop.allInPage]

/-- CflagsBody and SflagsBody (R355, R356). -/
theorem IsRmw.allInPage {mask value result : Word} {x : Addr} (hx : WindowOffset x)
    (h : IsRmw .plain (base + x) mask value es result) : AllInPage base es := by
  rcases h with ⟨-, rfl⟩ | ⟨-, w, rfl⟩ <;> simp [hx]

theorem IsAckWait.allInPage {n : Nat} {acked : Bool} (h : IsAckWait n base es acked) : AllInPage base es := by
  have hpolls : ∀ vs : List Word,
      AllInPage base (vs.map fun v => .memRead .plain (base + Config.errLogStatus) v) := by
    intro vs e he
    obtain ⟨v, -, rfl⟩ := List.mem_map.mp he
    simp
  obtain ⟨vs, -, ⟨-, -, rfl⟩ | ⟨-, -, last, -, rfl⟩⟩ := h
  · exact hpolls vs
  · exact hpolls (vs ++ [last])

/-- CLEAR_TIMEOUT on one bridge (R393). -/
theorem IsClearBridge.allInPage {n : Nat} {fatal : Bool} (h : IsClearBridge n base es fatal) :
    AllInPage base es := by
  obtain ⟨status, ⟨-, -, rfl⟩ | ⟨-, polls, hpolls, pulse, rfl, hpulse⟩⟩ := h
  · simp
  · have hlast : AllInPage base pulse := by
      rcases hpulse with ⟨-, rfl⟩ | ⟨-, x, y, rfl⟩ <;> simp
    simp [hpolls.allInPage, hlast]

/-- CLEAR_TIMEOUT on aligned bridges, on Flat (R390). -/
theorem IsClearBridges.accessesOk {n : Nat} {bs left : List Addr} (h : IsClearBridges n bs es left)
    (hbs : ∀ b ∈ bs, WordAligned b) {reg wrap : Addr} : AccessesOk true reg wrap es := by
  induction bs generalizing es left reg wrap with
  | nil =>
    obtain ⟨rfl, -⟩ := h
    exact accessesOk_nil
  | cons b rest ih =>
    obtain ⟨e1, e2, fatal, left2, rfl, hbridge, -, hrest⟩ := h
    obtain ⟨hb, hbs'⟩ := List.forall_mem_cons.mp hbs
    exact (accessesOk_append _ _).mpr ⟨accessesOk_page hb nofun hbridge.allInPage, ih hrest hbs'⟩

/-- ARM_TIMEOUTS on aligned bridges, on Flat (R391). -/
theorem accessesOk_armBridges {bs : List Addr} (hbs : ∀ b ∈ bs, WordAligned b) (w : Word) {reg wrap : Addr} :
    AccessesOk true reg wrap (bs.flatMap (fun b => [.map b Config.coreWindowSize,
      .memWrite .plain (b + Config.errLogCtrl) w])) := by
  induction bs generalizing reg wrap with
  | nil => exact accessesOk_nil
  | cons b rest ih =>
    obtain ⟨hb, hbs'⟩ := List.forall_mem_cons.mp hbs
    rw [List.flatMap_cons]
    exact (accessesOk_append _ _).mpr ⟨accessesOk_page (base := b) hb nofun (by simp), ih hbs'⟩

end Bodies

/-! ## The slots of a legacy bus (R230 to R235) -/

section Slots

variable {flat : Bool} {reg : Addr} {es : List Event}

/-- From REG at `reg` these events make their accesses where they should be, and leave REG at `reg'`. -/
def SlotAccesses (flat : Bool) (reg : Addr) (es : List Event) (reg' : Addr) : Prop :=
  (∀ wrap, AccessesOk flat reg wrap es) ∧ lastBase Event.regBase es reg = reg'

theorem SlotAccesses.nil : SlotAccesses flat reg [] reg := ⟨fun _ => accessesOk_nil, rfl⟩

theorem SlotAccesses.append {a b : List Event} {x y : Addr} (h : SlotAccesses flat reg a x)
    (k : SlotAccesses flat x b y) : SlotAccesses flat reg (a ++ b) y := by
  obtain ⟨hok, rfl⟩ := h
  obtain ⟨kok, rfl⟩ := k
  exact ⟨fun wrap => (accessesOk_append _ _).mpr ⟨hok wrap, kok _⟩, lastBase_append _ _ _ _⟩

/-- Selecting a page and reading a word of it (R80, R232; log 18). -/
theorem slotAccesses_read {page : Addr} (hpage : WordAligned page) (again : Bool) (word : BitVec 10) (v : Word) :
    SlotAccesses flat reg
      ((if flat = true ∨ (reg = page ∧ again = false) then [] else [.winSet .reg page]) ++
        [.memRead .plain (page + windowOffset word) v])
      (if flat then reg else page) := by
  have hread : ∀ base, (flat = false → page = base) →
      SlotAccesses flat base [.memRead .plain (page + windowOffset word) v] base := fun base hbase =>
    ⟨fun wrap => accessesOk_memRead (accessOk_page hpage ⟨windowOffset_lt word, windowOffset_aligned word⟩
      fun hflat => .inl (hbase hflat)), rfl⟩
  by_cases hstands : flat = true ∨ (reg = page ∧ again = false)
  · have hreg : (if flat then reg else page) = reg := by
      rcases hstands with rfl | ⟨rfl, -⟩ <;> simp
    rw [if_pos hstands, hreg]
    refine hread reg fun hflat => ?_
    rcases hstands with htrue | ⟨rfl, -⟩
    · cases hflat.symm.trans htrue
    · rfl
  · have hflat : flat = false := by simpa using fun h => hstands (.inl h)
    subst hflat
    rw [if_neg hstands]
    exact SlotAccesses.append (x := page) ⟨fun _ => AccessFree.accessesOk (by simp), rfl⟩ (hread page fun _ => rfl)

theorem IsIdentify.slotAccesses {slot : Addr} (hslot : WordAligned slot) {p : SlotProc}
    {r : Except ParseCause LegacyIdent} {reg' : Addr} (h : IsIdentify flat slot p reg es r reg') :
    SlotAccesses flat reg es reg' := by
  induction p generalizing reg es with
  | done id => obtain ⟨rfl, -, rfl⟩ := h; exact .nil
  | raise c => obtain ⟨rfl, -, rfl⟩ := h; exact .nil
  | read again page word next ih =>
    obtain ⟨v, rest, rfl, hrest⟩ := h
    rw [List.append_cons]
    exact (slotAccesses_read (hslot.add (pageBase_aligned page)) again word v).append (ih v hrest)
  | map base size next ih =>
    obtain ⟨rest, rfl, hrest⟩ := h
    exact SlotAccesses.append (a := [.map base size]) ⟨fun _ => AccessFree.accessesOk (by simp), rfl⟩ (ih hrest)

theorem IsSlots.slotAccesses {p : Params} {f : Family}
    {sub : LegacyIdent → Addr → List CoreDescriptor → List Event → WalkEnd → Prop} {b : Addr} (hb : WordAligned b)
    (hsub : ∀ id reg rows es e, sub id reg rows es e → SlotAccesses flat reg es e.reg) {left k : Nat}
    {rows : List CoreDescriptor} {e : WalkEnd} (h : IsSlots p f flat sub b left k reg rows es e) :
    SlotAccesses flat reg es e.reg := by
  induction left generalizing k reg rows es with
  | zero =>
    obtain ⟨rfl, rfl⟩ := h
    exact .nil
  | succ left ih =>
    obtain ⟨es1, r, reg1, es2, hid, rfl, hrest⟩ := h
    refine (hid.slotAccesses (slotAddr_aligned hb k)).append ?_
    cases r with
    | error c =>
      obtain ⟨rfl, rfl⟩ := hrest
      exact .nil
    | ok id =>
      dsimp only at hrest
      split at hrest
      · obtain ⟨es3, es4, e3, h3, rfl, hend⟩ := hrest
        refine (hsub _ _ _ _ _ h3).append ?_
        split at hend
        · obtain ⟨rfl, rfl⟩ := hend
          exact .nil
        · exact ih hend
      · split at hrest
        · obtain ⟨rfl, rfl⟩ := hrest
          exact .nil
        · exact ih hrest

theorem IsMainWalk.slotAccesses {p : Params} {f : Family} {count : Nat} {e : WalkEnd}
    (h : IsMainWalk p f flat count reg es e) : SlotAccesses flat reg es e.reg := by
  refine IsSlots.slotAccesses legacyBase_aligned (fun id _ _ _ _ hsub => ?_) h
  refine IsSlots.slotAccesses (wordAddr_aligned _) (fun _ _ _ _ _ hdeep => ?_) hsub
  obtain ⟨rfl, rfl⟩ := hdeep
  exact .nil

end Slots

end Sys2Proof.Machine

/-! PROOFS. Every access of a step is where it should be (20_memory.md R75, R80, R81): `Accesses` of each command and
each word of the stream, from the invariant. A focus switch makes no access (`Quiet`) and sets the windows for those
that follow. -/

namespace Sys2Proof.Machine

/-! ## What a step does outside the block (R75, R80, R81) -/

/-- From `s` to `u` every access is where it should be, the windows standing as they do in `s`. -/
def Accesses (s u : State) : Prop := ∃ es, u.trace = s.trace ++ es ∧ AccessesOk s.flat s.winReg s.winWrap es

/-- From `s` to `u` there is no bus access. -/
def Quiet (s u : State) : Prop := ∃ es, u.trace = s.trace ++ es ∧ AccessFree es

section Steps

variable {s t u : State} {i : Word} {d : CoreDescriptor} {wb : Addr}

theorem Quiet.of_trace_eq (h : u.trace = s.trace) : Quiet s u := ⟨[], h.trans (List.append_nil _).symm, accessFree_nil⟩

theorem Quiet.accesses (h : Quiet s u) : Accesses s u := by
  obtain ⟨es, htrace, hfree⟩ := h
  exact ⟨es, htrace, hfree.accessesOk⟩

theorem Accesses.of_trace_eq (h : u.trace = s.trace) : Accesses s u := (Quiet.of_trace_eq h).accesses

theorem Accesses.refl (s : State) : Accesses s s := .of_trace_eq rfl

theorem Accesses.then_quiet (h : Accesses s u) (k : Quiet u t) : Accesses s t := by
  obtain ⟨es, hu, hok⟩ := h
  obtain ⟨es', ht, hfree⟩ := k
  exact ⟨es ++ es', by rw [ht, hu, List.append_assoc], hok.append_free hfree⟩

theorem Accesses.of_acts {es : List Event} {lg : List LogEntry} (h : Acts s u es lg)
    (hok : AccessesOk s.flat s.winReg s.winWrap es) : Accesses s u := ⟨es, h.trace, hok⟩

/-! ## Focus switches (R281, R290) -/

/-- Maps and WinSets are no accesses. -/
theorem AccessFree.of_isSwitch {es : List Event} (h : ∀ e ∈ es, (∃ a n, e = .map a n) ∨ ∃ w b, e = .winSet w b) :
    AccessFree es := by
  intro e he
  rcases h e he with ⟨a, n, rfl⟩ | ⟨w, b, rfl⟩ <;> rfl

theorem switchTo_quiet (i : Word) (s : State) : Quiet s (s.switchTo i) := by
  obtain ⟨es, ha, hswitch, -⟩ := switchTo_acts i s
  exact ⟨es, ha.trace, .of_isSwitch hswitch⟩

theorem accessFree_switchEvents (s : State) (i : Word) : AccessFree (s.switchEvents i) := by
  unfold State.switchEvents
  split
  · simp
  · split
    · split <;> simp
    · simp

theorem accessFree_enterEvents (s : State) (i : Word) : AccessFree (s.enterEvents i) :=
  (accessFree_cons _ _).mpr ⟨rfl, accessFree_switchEvents s i⟩

theorem accessFree_leaveEvents (s : State) (i : Word) : AccessFree (s.leaveEvents i) := by
  unfold State.leaveEvents
  rw [accessFree_append]
  refine ⟨?_, by simp⟩
  split
  · split
    · simp
    · exact accessFree_switchEvents s _
  · simp

theorem accessFree_mapOnce (c : Option Addr) (b : Addr) : AccessFree (mapOnce c b) := by
  intro e he
  rw [mem_mapOnce he]
  rfl

/-- Inside a critical section REG stands at the core's own registers. -/
theorem lastBase_reg_enterEvents (hrow : s.row i = some d) (reg : Addr) :
    lastBase Event.regBase (s.enterEvents i) reg = d.primaryAddr := by
  unfold State.enterEvents State.switchEvents
  cases hwrap : d.wrapperAddr with
  | none => simp [hrow, hwrap, lastBase, Event.regBase]
  | some wb => by_cases hcount : s.cfg.windowCount = 2 <;> simp [hrow, hwrap, hcount, lastBase, Event.regBase]

/-- Inside a critical section on a core with a wrapper WRAP stands at it, if there are two windows. -/
theorem lastBase_wrap_enterEvents (hrow : s.row i = some d) (hwrap : d.wrapperAddr = some wb)
    (hcount : s.cfg.windowCount = 2) (wrap : Addr) : lastBase Event.wrapBase (s.enterEvents i) wrap = wb := by
  simp [State.enterEvents, State.switchEvents, hrow, hwrap, hcount, lastBase, Event.wrapBase]

/-! ## The commands on a core -/

/-- A core whose wrapper passes the range checks can be reached, and its wrapper is aligned. -/
theorem State.Steady.reachable (hs : s.Steady) (h : s.usableWrapper i = some (d, wb)) :
    s.WrapperReachable i d wb ∧ WordAligned wb := by
  obtain ⟨hrow, hwrap⟩ := usableWrapper_some h
  obtain ⟨-, hwrapper⟩ := hs.aligned.rows d (List.mem_of_getElem? hrow)
  refine ⟨⟨hrow, hwrap, fun hflat => ⟨?_, fun p hp => (row_some_iff s p).mp (hs.focus.row p hp)⟩⟩, hwrapper wb hwrap⟩
  obtain ⟨-, hwindows, -⟩ := hs.cfg
  have hone : s.cfg.windowCount ≠ 1 := by
    intro hc
    simp [State.usableWrapper, hrow, hwrap, hflat, hc] at h
  have htransport : s.cfg.transport ≠ .flat := by
    rw [ne_eq, ← flat_iff, hflat]
    simp
  exact (hwindows htransport).resolve_left hone

/-- A wrapper body whose accesses are to registers of the wrapper (R341). -/
theorem accesses_withWrapper {α : Type} {body : State → α × State} (h : s.WrapperReachable i d wb)
    (hal : WordAligned wb)
    (hbody : ∀ v, (∀ x, v.wrapperPa wb x = wb + x) → ∃ es lg, Body v (body v).2 es lg ∧ AllInPage wb es) :
    Accesses s (s.withWrapper i wb body).2 := by
  obtain ⟨es, lg, ha, hpage, -⟩ := withWrapper_spec (Q := fun es _ _ => AllInPage wb es) h (fun v _ hpa => hbody v hpa)
  refine .of_acts ha ?_
  unfold State.wrapperEnter State.wrapperLeave
  cases hflat : s.flat
  · obtain ⟨hcount, -⟩ := h.windows hflat
    refine AccessesOk.append_free ?_ (accessFree_leaveEvents s i)
    refine (accessFree_enterEvents s i).append_ok (accessesOk_page hal (fun _ => .inr ?_) hpage)
    exact (lastBase_wrap_enterEvents h.row h.wrapper hcount _).symm
  · refine AccessesOk.append_free (AccessFree.append_ok ?_ (accessesOk_page hal nofun hpage)) accessFree_nil
    exact accessFree_mapOnce (cacheGet s.mapWrap i.toNat) wb

/-- ACCESS_REGISTER on its three paths: plain at the core's mapping, FAST past the windows, plain through REG. -/
theorem accesses_access {off mask value : Word} (hs : s.Steady) (hrow : s.row i = some d)
    (hoff : offsetOk off = true) : Accesses s (s.access i d off mask value).2 := by
  obtain ⟨hbase, -⟩ := hs.aligned.rows d (List.mem_of_getElem? hrow)
  have hal := offsetOk_aligned hoff
  have hwindow : WindowOffset (zext64 off) := by
    simp only [offsetOk, Bool.and_eq_true, decide_eq_true_eq] at hoff
    exact ⟨hoff.1, hal⟩
  cases hflat : s.flat
  · cases hfast : s.fastPathCore i
    · have hreg : (s.irqMask.2.switchTo i).winReg = d.primaryAddr := by
        rw [switchTo_windowed (s := s.irqMask.2) hrow hflat]
      obtain ⟨es, hbody, hrmw⟩ := rmw_body .plain ((s.irqMask.2.switchTo i).winReg + zext64 off) mask value
        (s.irqMask.2.switchTo i)
      obtain ⟨ha, -⟩ := withFocus_windowed (body := fun t => t.rmw .plain (t.winReg + zext64 off) mask value) hflat
        hbody
      rw [hreg] at hrmw
      rw [access_slow hflat hfast]
      refine .of_acts ha (AccessesOk.append_free ?_ (accessFree_leaveEvents s i))
      refine (accessFree_enterEvents s i).append_ok (hrmw.accessesOk (accessOk_page hbase hwindow fun _ => .inl ?_))
      exact (lastBase_reg_enterEvents hrow _).symm
    · obtain ⟨es, hbody, hrmw⟩ := rmw_body .fast (d.primaryAddr + zext64 off) mask value s
      rw [access_fast hflat hfast]
      refine .of_acts hbody.toActs (hrmw.accessesOk ⟨hbase.add hal, fun htrue => ?_, nofun⟩)
      cases hflat.symm.trans htrue
  · obtain ⟨hmap, -⟩ := mapCore_acts i d.primaryAddr s
    obtain ⟨es, hbody, hrmw⟩ := rmw_body .plain (d.primaryAddr + zext64 off) mask value (s.mapCore i d.primaryAddr)
    rw [access_flat hflat]
    refine .of_acts (hmap.trans hbody.toActs) ((accessFree_mapOnce _ _).append_ok (hrmw.accessesOk ?_))
    refine accessOk_page hbase hwindow fun hfalse => ?_
    cases hflat.symm.trans hfalse

/-! ## One command -/

/-- A command, its body being run in a block that keeps the invariant. -/
theorem accesses_command {body : State → List Word × State} (hs : s.Steady) (h : command body s = .next t)
    (hbody : ∀ u, u.Steady → Accesses u (body u).2) : Accesses s t := by
  obtain ⟨-, rfl⟩ := command_next h
  exact hbody s.begin hs.begin

theorem accesses_query {answer : State → List Word} (hs : s.Steady)
    (h : command (fun u => (answer u, u)) s = .next t) : Accesses s t :=
  accesses_command hs h fun u _ => .refl u

theorem accesses_lifecycle {run : Addr → State → Unit × State} (hs : s.Steady)
    (h : lifecycleCommand i run s = .next t)
    (hrun : ∀ u d wb, u.WrapperReachable i d wb → WordAligned wb → Accesses u (run wb u).2) : Accesses s t := by
  refine accesses_command hs h fun u hu => ?_
  split
  · exact .refl u
  · rename_i hw
    obtain ⟨hr, hal⟩ := hu.reachable hw
    exact hrun u _ _ hr hal

theorem accesses_disable {ioBits : Word} (hs : s.Steady) (h : execDisable i ioBits s = .next t) : Accesses s t := by
  refine accesses_lifecycle hs h fun u d wb hr hal => accesses_withWrapper hr hal fun v hpa => ?_
  obtain ⟨es, lg, hbody, hd⟩ := disableBody_body ioBits wb v hpa
  exact ⟨es, lg, hbody, hd.allInPage⟩

theorem accesses_reset {io ro : Word} (hs : s.Steady) (h : execReset i io ro s = .next t) : Accesses s t := by
  refine accesses_lifecycle hs h fun u d wb hr hal => ?_
  have hrun : Accesses { u with resetting := some i }
      (State.withWrapper i wb (resetBody io ro wb) { u with resetting := some i }).2 := by
    refine accesses_withWrapper hr.whileResetting hal fun v hpa => ?_
    obtain ⟨es, lg, hbody, hd⟩ := resetBody_body io ro wb v hpa
    exact ⟨es, lg, hbody, hd.allInPage⟩
  exact hrun

theorem accesses_isUp (hs : s.Steady) (h : execIsUp i s = .next t) : Accesses s t := by
  refine accesses_command hs h fun u hu => ?_
  split
  · exact .refl u
  · rename_i hw
    obtain ⟨hr, hal⟩ := hu.reachable hw
    refine accesses_withWrapper hr hal fun v hpa => ?_
    obtain ⟨es, hbody, hcase⟩ := isUpBody_body _ v hpa
    refine ⟨es, [], hbody, ?_⟩
    rcases hcase with ⟨io, -, -, rfl⟩ | ⟨io, r, -, -, rfl⟩ <;> simp

theorem accesses_flags {mask value : Word} {reg : Addr} (hreg : WindowOffset reg) (hs : s.Steady)
    (h : flagsCommand reg i mask value s = .next t) : Accesses s t := by
  refine accesses_command hs h fun u hu => ?_
  split
  · exact .refl u
  · rename_i d wb hw
    split
    · exact .refl u
    · obtain ⟨hr, hal⟩ := hu.reachable hw
      refine accesses_withWrapper hr hal fun v hpa => ?_
      obtain ⟨es, hbody, hrmw⟩ := rmw_body .plain (v.wrapperPa wb reg) mask value v
      rw [hpa reg] at hrmw
      exact ⟨es, [], hbody, hrmw.allInPage hreg⟩

theorem accesses_switchTo (hs : s.Steady) (h : execSwitchTo i s = .next t) : Accesses s t := by
  refine accesses_command hs h fun u _ => ?_
  split
  · exact (switchTo_quiet i u).accesses
  · exact .refl u

theorem accesses_accessRegister {off mask value : Word} (hs : s.Steady)
    (h : execAccessRegister i off mask value s = .next t) : Accesses s t := by
  refine accesses_command hs h fun u hu => ?_
  split
  · split
    · exact accesses_access hu ‹_› ‹_›
    · exact .refl u
  · exact .refl u

theorem accesses_armTimeouts (hs : s.Steady) (h : execArmTimeouts s = .next t) : Accesses s t := by
  refine accesses_command hs h fun u hu => ?_
  split
  · rename_i hflat
    refine .of_acts (armBridges_body u.bws u).toActs ?_
    rw [hflat]
    exact accessesOk_armBridges hu.aligned.bridges _
  · exact .refl u

theorem accesses_clearTimeout (hs : s.Steady) (h : execClearTimeout s = .next t) : Accesses s t := by
  refine accesses_command hs h fun u hu => ?_
  split
  · rename_i hflat
    obtain ⟨es, left, hbody, hclear, -⟩ := clearBridges_body u.bws u
    refine .of_acts hbody.toActs ?_
    rw [hflat]
    exact hclear.accessesOk hu.aligned.bridges
  · exact .refl u

theorem accesses_attach {transport busGen windowCount chipId chipRev package fastCount : Word}
    {fast : List (Word × Word)}
    (h : execAttach transport busGen windowCount chipId chipRev package fastCount fast s = .next t) :
    Accesses s t := by
  unfold execAttach at h
  split at h
  · cases h
  · split at h
    · cases h
    · cases h
      split <;> exact .of_trace_eq rfl

/-! ## SCAN's own step (R196, R230) -/

theorem parseFail_quiet (c : ParseCause) (s : State) : Quiet s (s.parseFail c) := .of_trace_eq rfl

theorem scanDone_quiet (s : State) : Quiet s s.scanDone :=
  switchTo_quiet 0#32 { s with
    table := s.scan.rows, scanStatus := .ok, scan := { s.scan with rows := [] }
    busy := false, response := answerStatus .ok }

/-- The enumeration pointer is read in the bootstrap core's window. -/
theorem accessesOk_eromPtr (s : State) : AccessesOk s.flat s.winReg s.winWrap
    [s.bootEvent, .memRead .plain eromPtrAddr s.eromPtr] := by
  have hpage : WordAligned Config.bootCoreBase := by decide
  have hoff : WindowOffset Config.eromPtrOffset := ⟨by decide, by decide⟩
  have hboot : AccessFree [s.bootEvent] := by
    unfold State.bootEvent
    split <;> simp
  refine AccessFree.append_ok (a := [s.bootEvent]) hboot (accessesOk_memRead (accessOk_page hpage hoff fun hflat => ?_))
  exact .inl (by simp [State.bootEvent, hflat, lastBase, Event.regBase])

theorem accesses_locateStream (s : State) : Accesses s s.locateStream := by
  obtain ⟨hopen, hfail⟩ := locateStream_spec s
  have hread := accessesOk_eromPtr s
  by_cases hp : field s.eromPtr 0 2 = 0#2
  · obtain ⟨u, hu, -, hprobe⟩ := hopen hp
    have hopenEvent : AccessFree [s.openEvent s.eromPtr] := by
      unfold State.openEvent
      split <;> simp
    rw [hu]
    exact (Accesses.of_acts hprobe.toActs (hread.append_free hopenEvent)).then_quiet (.of_trace_eq rfl)
  · obtain ⟨u, hu, -, hprobe⟩ := hfail hp
    rw [hu]
    exact (Accesses.of_acts hprobe.toActs hread).then_quiet (parseFail_quiet _ u)

/-- The legacy scan: the identity register is read in the page at the legacy base, then the slots are walked. -/
theorem accesses_legacyScan (hrows : s.scan.rows = []) : Accesses s s.legacyScan := by
  have hselect := selectPage_probe Config.legacyBase true s
  have hpa : (s.selectPage Config.legacyBase true).pagePa Config.legacyBase Config.legacyIdWord =
      Config.legacyBase + windowOffset Config.legacyIdWord := by
    unfold State.pagePa
    rw [hselect.flat, hselect.reg]
    cases s.flat <;> simp
  have hread := hselect.trans (probe_memRead .plain (Config.legacyBase + windowOffset Config.legacyIdWord) _)
  obtain ⟨es, e, ⟨hwalk, -⟩, hmain⟩ := mainWalk_spec (legacyCount s.cfg.family
    ((s.selectPage Config.legacyBase true).memRead .plain
      (Config.legacyBase + windowOffset Config.legacyIdWord)).1).toNat _ (by rw [hread.scan, hrows])
  rw [hread.flat, hread.reg, hselect.reg] at hmain
  obtain ⟨hok, -⟩ := (slotAccesses_read legacyBase_aligned true Config.legacyIdWord _).append hmain.slotAccesses
  have hall := Accesses.of_acts (s := s.withRows e.rows) ((hread.withRows e.rows).trans hwalk).toActs (hok s.winWrap)
  unfold State.legacyScan
  dsimp only
  rw [hpa]
  split
  · exact hall.then_quiet (scanDone_quiet _)
  · exact hall.then_quiet (parseFail_quiet _ _)

theorem accesses_scanStart (s : State) : Accesses s s.scanStart := by
  unfold State.scanStart
  split
  · exact accesses_locateStream s.scanPrologue
  · exact accesses_legacyScan (s := s.scanPrologue) rfl

theorem accesses_scan (h : execScan s = .next t) : Accesses s t := by
  unfold execScan at h
  split at h
  · cases h
  · split at h
    · cases h
      exact accesses_scanStart s.begin
    · cases h

/-- Every command makes its accesses where they should be. -/
theorem accesses_exec {j : Instr} (hs : s.Steady) (hpos : j.position = none) (h : exec j s = .next t) :
    Accesses s t := by
  cases j with
  | attach transport busGen windowCount chipId chipRev package fastCount fast => exact accesses_attach h
  | detach => unfold exec execDetach at h; exact accesses_command hs h fun u _ => .of_trace_eq rfl
  | scan => exact accesses_scan h
  | coreCount => unfold exec execCoreCount at h; exact accesses_query hs h
  | coreId index => unfold exec execCoreId at h; exact accesses_query hs h
  | coreRev index => unfold exec execCoreRev at h; exact accesses_query hs h
  | corePrimaryAddr index => unfold exec execCorePrimaryAddr at h; exact accesses_query hs h
  | corePrimarySize index => unfold exec execCorePrimarySize at h; exact accesses_query hs h
  | coreSecondaryAddr index => unfold exec execCoreSecondaryAddr at h; exact accesses_query hs h
  | coreSecondarySize index => unfold exec execCoreSecondarySize at h; exact accesses_query hs h
  | coreWrapperAddr index => unfold exec execCoreWrapperAddr at h; exact accesses_query hs h
  | oobRouterAddr => unfold exec execOobRouterAddr at h; exact accesses_query hs h
  | currentFocus => unfold exec execCurrentFocus at h; exact accesses_query hs h
  | switchTo index => exact accesses_switchTo hs h
  | accessRegister index offset mask value => exact accesses_accessRegister hs h
  | disable index ioBits => exact accesses_disable hs h
  | reset index ioBits resetOnlyBits => exact accesses_reset hs h
  | isUp index => exact accesses_isUp hs h
  | cflags index mask value => exact accesses_flags windowOffset_ioCtrl hs h
  | sflags index mask value => exact accesses_flags windowOffset_ioStatus hs h
  | armTimeouts => exact accesses_armTimeouts hs h
  | clearTimeout => exact accesses_clearTimeout hs h
  | cia | cib | mpd | asdSlave | asdBridge | asdSwrap | asdMwrap | addrHi | szd | sizeHi | endOnes | endRom
  | invalid | reserved011 | reserved100 | reserved101 | reserved111 => cases hpos

/-! ## One step -/

/-- A stream read below the limit is inside the window at the stream's start (R80, R150). -/
theorem accessOk_streamPa (hs : s.Steady) (hscan : s.ScanInv) (hlt : s.scan.cur < s.scan.lim) :
    AccessOk s.flat s.winReg s.winWrap [] .plain s.streamPa := by
  have hbase : WordAligned (zext64 s.scan.eromBase) := by
    simpa [WordAligned, zext64, Nat.mod_eq_of_lt (Nat.lt_trans s.scan.eromBase.isLt (by decide : 2 ^ 32 < 2 ^ 64))]
      using hs.aligned.stream
  have hoff : WindowOffset (4#64 * zext64 s.scan.cur) := by
    rw [hscan.limit] at hlt
    have hcur : s.scan.cur.toNat < 0x380 := hlt
    constructor <;> simp only [WordAligned, zext64, Config.windowSize, BitVec.toNat_mul, BitVec.toNat_setWidth,
      BitVec.toNat_ofNat] <;> omega
  have hpa : s.streamPa = zext64 s.scan.eromBase + 4#64 * zext64 s.scan.cur := by
    unfold State.streamPa
    cases hflat : s.flat
    · simp [hscan.window hflat]
    · rfl
  rw [hpa]
  exact accessOk_page hbase hoff fun hflat => .inl (hscan.window hflat).symm

theorem WordEffect.quiet (h : WordEffect s t) : Quiet s t := by
  cases h with
  | going h => exact .of_trace_eq (congrArg State.trace h.frame :)
  | failed h c => exact .of_trace_eq (congrArg State.trace h.frame :)
  | done hpos => exact scanDone_quiet s

/-- Between scans a step that answers waits or runs a command. -/
theorem step_between (hbusy : s.busy = false) (h : step s = .next t) :
    t = s ∨ ∃ j rest, j.position = none ∧ exec j { s with commands := rest } = .next t := by
  unfold step at h
  rw [fetch_between hbusy, fetchCommand] at h
  cases hd : decodeCommand s.commands with
  | idle => rw [hd] at h; cases h; exact .inl rfl
  | incomplete => rw [hd] at h; cases h; exact .inl rfl
  | reservedBits => rw [hd] at h; cases h
  | unassigned opc => rw [hd] at h; cases h
  | command j rest =>
    rw [hd] at h
    by_cases hpos : j.position = none
    · exact .inr ⟨j, rest, hpos, h⟩
    · cases hbusy.symm.trans (exec_wordEffect hpos h).1

/-- Every step from the invariant makes its accesses where they should be. -/
theorem accesses_step (hs : s.Inv) (h : step s = .next t) : Accesses s t := by
  cases hbusy : s.busy
  · rcases step_between hbusy h with rfl | ⟨j, rest, hpos, hexec⟩
    · exact .refl t
    · have hcommand : Accesses { s with commands := rest } t :=
        accesses_exec (hs.steady.setCommands rest) hpos hexec
      exact hcommand
  · rw [step_scanning hbusy] at h
    by_cases hlim : s.scan.lim ≤ s.scan.cur
    · rw [if_pos hlim] at h
      cases h
      exact (parseFail_quiet _ s).accesses
    · rw [if_neg hlim] at h
      have hread := accessOk_streamPa hs.steady (hs.scan hbusy) (BitVec.not_le.mp hlim)
      have hword := (exec_wordEffect (decodeStream_position _ _) h).2.quiet
      exact Accesses.then_quiet ⟨_, rfl, accessesOk_memRead hread⟩ hword

end Steps

/-- Settles O58: the access asked about is one of those of `accesses_step`. -/
theorem accessesAligned : Obligations.AccessesAligned := by
  intro s t before after path pa v hs h hevent
  obtain ⟨es, htrace, hok⟩ := accesses_step hs h
  rcases hevent with hread | hwrite
  · rw [htrace, List.append_assoc, List.append_cancel_left_eq] at hread
    exact (hread ▸ hok).accessOk rfl
  · rw [htrace, List.append_assoc, List.append_cancel_left_eq] at hwrite
    exact (hwrite ▸ hok).accessOk rfl

end Sys2Proof.Machine

/-! PROOFS. The encoding of the descriptor words (30_encoding.md R100 to R113). What the fields of each word are is
said once, as an equivalence (`ciaWord_eq_iff` and those after it): read to the right it decodes the word of an
instruction, read to the left it encodes the instruction a word decodes to. -/

namespace Sys2Proof

/-! ## Fields of a word (R9) -/

section Words

variable {w : Word}

theorem field_all (w : Word) : field w 0 32 = w := BitVec.extractLsb'_eq_self

/-- A field is its high part and its low part. -/
theorem append_eq_field_iff {lo m n : Nat} (x : BitVec m) (y : BitVec n) :
    x ++ y = field w lo (m + n) ↔ x = field w (lo + n) m ∧ y = field w lo n := by
  have hsplit : field w (lo + n) m ++ field w lo n = field w lo (m + n) :=
    BitVec.extractLsb'_append_extractLsb'_eq_extractLsb' rfl
  constructor
  · intro h
    rw [← hsplit] at h
    have hhigh := congrArg (BitVec.extractLsb' n m) h
    have hlow := congrArg (BitVec.extractLsb' 0 n) h
    rw [BitVec.extractLsb'_append_eq_left, BitVec.extractLsb'_append_eq_left] at hhigh
    rw [BitVec.extractLsb'_append_eq_right, BitVec.extractLsb'_append_eq_right] at hlow
    exact ⟨hhigh, hlow⟩
  · rintro ⟨rfl, rfl⟩
    exact hsplit

/-- Bits 2:1 are the low bits of the TAG. -/
theorem field_tagLow (w : Word) : field w 1 2 = (field w 1 3).extractLsb' 0 2 := by
  have hsplit : field w 3 1 ++ field w 1 2 = field w 1 3 := (append_eq_field_iff _ _).mpr ⟨rfl, rfl⟩
  rw [← hsplit, BitVec.extractLsb'_append_eq_right]

/-! ## The words of the encoder, field by field -/

theorem ciaWord_eq_iff (mfg cid : BitVec 12) (ccl : BitVec 4) : ciaWord mfg cid ccl = w ↔
    mfg = field w 20 12 ∧ cid = field w 8 12 ∧ ccl = field w 4 4 ∧ 0#3 = field w 1 3 ∧ 1#1 = field w 0 1 :=
  calc ciaWord mfg cid ccl = w
    _ ↔ (mfg ++ cid ++ ccl ++ (0#3 ++ 1#1) : BitVec (12 + 12 + 4 + (3 + 1))) = field w 0 (12 + 12 + 4 + (3 + 1)) := by
      rw [field_all]; rfl
    _ ↔ _ := by simp only [append_eq_field_iff, and_assoc, Nat.zero_add]

theorem cibWord_eq_iff (rev : BitVec 8) (nsw nmw nsp nmp : BitVec 5) (valid : BitVec 1) :
    cibWord rev nsw nmw nsp nmp valid = w ↔
      rev = field w 24 8 ∧ nsw = field w 19 5 ∧ nmw = field w 14 5 ∧ nsp = field w 9 5 ∧ nmp = field w 4 5 ∧
        0#3 = field w 1 3 ∧ valid = field w 0 1 :=
  calc cibWord rev nsw nmw nsp nmp valid = w
    _ ↔ (rev ++ nsw ++ nmw ++ nsp ++ nmp ++ 0#3 ++ valid : BitVec (8 + 5 + 5 + 5 + 5 + 3 + 1)) =
        field w 0 (8 + 5 + 5 + 5 + 5 + 3 + 1) := by rw [field_all]; rfl
    _ ↔ _ := by simp only [append_eq_field_iff, and_assoc, Nat.zero_add]

theorem mpdWord_eq_iff (rsv : BitVec 16) (mui : BitVec 8) (mp : BitVec 4) : mpdWord rsv mui mp = w ↔
    rsv = field w 16 16 ∧ mui = field w 8 8 ∧ mp = field w 4 4 ∧ 1#3 = field w 1 3 ∧ 1#1 = field w 0 1 :=
  calc mpdWord rsv mui mp = w
    _ ↔ (rsv ++ mui ++ mp ++ (1#3 ++ 1#1) : BitVec (16 + 8 + 4 + (3 + 1))) = field w 0 (16 + 8 + 4 + (3 + 1)) := by
      rw [field_all]; rfl
    _ ↔ _ := by simp only [append_eq_field_iff, and_assoc, Nat.zero_add]

theorem asdWord_eq_iff (st : BitVec 2) (addr : BitVec 20) (sp : BitVec 4) (sz : BitVec 2) (ag32 : BitVec 1) :
    asdWord st addr sp sz ag32 = w ↔
      addr = field w 12 20 ∧ sp = field w 8 4 ∧ st = field w 6 2 ∧ sz = field w 4 2 ∧ ag32 = field w 3 1 ∧
        2#2 = field w 1 2 ∧ 1#1 = field w 0 1 :=
  calc asdWord st addr sp sz ag32 = w
    _ ↔ (addr ++ sp ++ st ++ sz ++ ag32 ++ (2#2 ++ 1#1) : BitVec (20 + 4 + 2 + 2 + 1 + (2 + 1))) =
        field w 0 (20 + 4 + 2 + 2 + 1 + (2 + 1)) := by rw [field_all]; rfl
    _ ↔ _ := by simp only [append_eq_field_iff, and_assoc, Nat.zero_add]

theorem szdWord_eq_iff (size : BitVec 20) (ignHi : BitVec 8) (sg32 : BitVec 1) (ignLo : BitVec 3) :
    szdWord size ignHi sg32 ignLo = w ↔
      size = field w 12 20 ∧ ignHi = field w 4 8 ∧ sg32 = field w 3 1 ∧ ignLo = field w 0 3 :=
  calc szdWord size ignHi sg32 ignLo = w
    _ ↔ (size ++ ignHi ++ sg32 ++ ignLo : BitVec (20 + 8 + 1 + 3)) = field w 0 (20 + 8 + 1 + 3) := by
      rw [field_all]; rfl
    _ ↔ _ := by simp only [append_eq_field_iff, and_assoc, Nat.zero_add]

theorem invalidWord_eq_iff (rest : BitVec 31) : invalidWord rest = w ↔ rest = field w 1 31 ∧ 0#1 = field w 0 1 :=
  calc invalidWord rest = w
    _ ↔ (rest ++ 0#1 : BitVec (31 + 1)) = field w 0 (31 + 1) := by rw [field_all]; rfl
    _ ↔ _ := append_eq_field_iff _ _

theorem reservedWord_eq_iff (tag : BitVec 3) (rest : BitVec 28) : reservedWord tag rest = w ↔
    rest = field w 4 28 ∧ tag = field w 1 3 ∧ 1#1 = field w 0 1 :=
  calc reservedWord tag rest = w
    _ ↔ (rest ++ tag ++ 1#1 : BitVec (28 + 3 + 1)) = field w 0 (28 + 3 + 1) := by rw [field_all]; rfl
    _ ↔ _ := by simp only [append_eq_field_iff, and_assoc, Nat.zero_add]

/-! ## The decoder, tag by tag (R101, R105, R106) -/

/-- A word whose TAG is not 111 is no END word. -/
theorem not_end_of_tag (htag : field w 1 3 ≠ 7#3) : w ≠ 0xFFFFFFFF#32 ∧ w ≠ 0x0000000F#32 :=
  ⟨fun h => htag (h ▸ by decide), fun h => htag (h ▸ by decide)⟩

theorem decodeTagged_invalid (hvalid : field w 0 1 = 0#1) : decodeTagged w = .invalid (field w 1 31) := if_pos hvalid

/-- Of the valid words that are no END, the TAG decides. -/
theorem decodeTagged_valid (hvalid : field w 0 1 = 1#1) (hend : w ≠ 0xFFFFFFFF#32 ∧ w ≠ 0x0000000F#32) :
    decodeTagged w =
      if (field w 1 3).extractLsb' 0 2 = 2#2 then decodeAsd w
      else if field w 1 3 = 0#3 then .cia (field w 20 12) (field w 8 12) (field w 4 4)
      else if field w 1 3 = 1#3 then .mpd (field w 16 16) (field w 8 8) (field w 4 4)
      else if field w 1 3 = 3#3 then .reserved011 (field w 4 28)
      else if field w 1 3 = 4#3 then .reserved100 (field w 4 28)
      else if field w 1 3 = 5#3 then .reserved101 (field w 4 28)
      else .reserved111 (field w 4 28) := by
  simp [decodeTagged, hvalid, hend, field_tagLow]

theorem decodeTagged_cia (hvalid : field w 0 1 = 1#1) (htag : field w 1 3 = 0#3) :
    decodeTagged w = .cia (field w 20 12) (field w 8 12) (field w 4 4) := by
  rw [decodeTagged_valid hvalid (not_end_of_tag (by simp [htag])), htag]
  rfl

theorem decodeTagged_mpd (hvalid : field w 0 1 = 1#1) (htag : field w 1 3 = 1#3) :
    decodeTagged w = .mpd (field w 16 16) (field w 8 8) (field w 4 4) := by
  rw [decodeTagged_valid hvalid (not_end_of_tag (by simp [htag])), htag]
  rfl

theorem decodeTagged_reserved011 (hvalid : field w 0 1 = 1#1) (htag : field w 1 3 = 3#3) :
    decodeTagged w = .reserved011 (field w 4 28) := by
  rw [decodeTagged_valid hvalid (not_end_of_tag (by simp [htag])), htag]
  rfl

theorem decodeTagged_reserved100 (hvalid : field w 0 1 = 1#1) (htag : field w 1 3 = 4#3) :
    decodeTagged w = .reserved100 (field w 4 28) := by
  rw [decodeTagged_valid hvalid (not_end_of_tag (by simp [htag])), htag]
  rfl

theorem decodeTagged_reserved101 (hvalid : field w 0 1 = 1#1) (htag : field w 1 3 = 5#3) :
    decodeTagged w = .reserved101 (field w 4 28) := by
  rw [decodeTagged_valid hvalid (not_end_of_tag (by simp [htag])), htag]
  rfl

/-- The END words are the words of TAG 111 with bits 31:4 all 0 or all 1. -/
theorem decodeTagged_reserved111 (hvalid : field w 0 1 = 1#1) (htag : field w 1 3 = 7#3)
    (hrest : field w 4 28 ≠ 0#28 ∧ field w 4 28 ≠ BitVec.allOnes 28) :
    decodeTagged w = .reserved111 (field w 4 28) := by
  have hend : w ≠ 0xFFFFFFFF#32 ∧ w ≠ 0x0000000F#32 :=
    ⟨fun h => hrest.2 (h ▸ by decide), fun h => hrest.1 (h ▸ by decide)⟩
  rw [decodeTagged_valid hvalid hend, htag]
  rfl

theorem decodeTagged_asd (hvalid : field w 0 1 = 1#1) (htype : field w 1 2 = 2#2) : decodeTagged w = decodeAsd w := by
  have htag : field w 1 3 ≠ 7#3 := fun h => by simp [field_tagLow, h] at htype
  rw [decodeTagged_valid hvalid (not_end_of_tag htag), ← field_tagLow, if_pos htype]

/-- An ASD head of type `st` (R105, R106). -/
def asdInstr (st : AsdType) (addr : BitVec 20) (sp : BitVec 4) (sz : BitVec 2) (ag32 : BitVec 1) : Instr :=
  match st with
  | .slave => .asdSlave addr sp sz ag32
  | .bridge => .asdBridge addr sp sz ag32
  | .swrap => .asdSwrap addr sp sz ag32
  | .mwrap => .asdMwrap addr sp sz ag32

theorem encode_asdInstr (st : AsdType) (addr : BitVec 20) (sp : BitVec 4) (sz : BitVec 2) (ag32 : BitVec 1) :
    encode (asdInstr st addr sp sz ag32) = [asdWord st.code addr sp sz ag32] := by
  cases st <;> rfl

theorem asdInstr_wellFormed (st : AsdType) (addr : BitVec 20) (sp : BitVec 4) (sz : BitVec 2) (ag32 : BitVec 1) :
    (asdInstr st addr sp sz ag32).wellFormed = true := by
  cases st <;> rfl

theorem asdInstr_position (st : AsdType) (addr : BitVec 20) (sp : BitVec 4) (sz : BitVec 2) (ag32 : BitVec 1) :
    (asdInstr st addr sp sz ag32).position = some .tagged := by
  cases st <;> rfl

theorem exists_code_eq (c : BitVec 2) : ∃ st : AsdType, c = st.code := by
  have hc : c = 0#2 ∨ c = 1#2 ∨ c = 2#2 ∨ c = 3#2 := by revert c; decide
  rcases hc with rfl | rfl | rfl | rfl
  · exact ⟨.slave, rfl⟩
  · exact ⟨.bridge, rfl⟩
  · exact ⟨.swrap, rfl⟩
  · exact ⟨.mwrap, rfl⟩

/-- The type field of an ASD head is the code of its type (R106). -/
theorem decodeAsd_eq {st : AsdType} (h : field w 6 2 = st.code) :
    decodeAsd w = asdInstr st (field w 12 20) (field w 8 4) (field w 4 2) (field w 3 1) := by
  unfold decodeAsd
  rw [h]
  cases st <;> rfl

end Words

/-! ## Decode of encode -/

theorem decodeTagged_ciaWord (mfg cid : BitVec 12) (ccl : BitVec 4) :
    decodeTagged (ciaWord mfg cid ccl) = .cia mfg cid ccl := by
  generalize hw : ciaWord mfg cid ccl = w
  obtain ⟨rfl, rfl, rfl, htag, hvalid⟩ := (ciaWord_eq_iff mfg cid ccl).mp hw
  exact decodeTagged_cia hvalid.symm htag.symm

theorem decodeStream_cibWord (rev : BitVec 8) (nsw nmw nsp nmp : BitVec 5) (valid : BitVec 1) :
    decodeStream .cib (cibWord rev nsw nmw nsp nmp valid) = .cib rev nsw nmw nsp nmp valid := by
  generalize hw : cibWord rev nsw nmw nsp nmp valid = w
  obtain ⟨rfl, rfl, rfl, rfl, rfl, htag, rfl⟩ := (cibWord_eq_iff rev nsw nmw nsp nmp valid).mp hw
  exact if_pos htag.symm

theorem decodeTagged_mpdWord (rsv : BitVec 16) (mui : BitVec 8) (mp : BitVec 4) :
    decodeTagged (mpdWord rsv mui mp) = .mpd rsv mui mp := by
  generalize hw : mpdWord rsv mui mp = w
  obtain ⟨rfl, rfl, rfl, htag, hvalid⟩ := (mpdWord_eq_iff rsv mui mp).mp hw
  exact decodeTagged_mpd hvalid.symm htag.symm

theorem decodeTagged_asdWord (st : AsdType) (addr : BitVec 20) (sp : BitVec 4) (sz : BitVec 2) (ag32 : BitVec 1) :
    decodeTagged (asdWord st.code addr sp sz ag32) = asdInstr st addr sp sz ag32 := by
  generalize hw : asdWord st.code addr sp sz ag32 = w
  obtain ⟨rfl, rfl, hcode, rfl, rfl, htype, hvalid⟩ := (asdWord_eq_iff st.code addr sp sz ag32).mp hw
  rw [decodeTagged_asd hvalid.symm htype.symm, decodeAsd_eq hcode.symm]

theorem decodeStream_szdWord (size : BitVec 20) (ignHi : BitVec 8) (sg32 : BitVec 1) (ignLo : BitVec 3) :
    decodeStream .szd (szdWord size ignHi sg32 ignLo) = .szd size ignHi sg32 ignLo := by
  generalize hw : szdWord size ignHi sg32 ignLo = w
  obtain ⟨rfl, rfl, rfl, rfl⟩ := (szdWord_eq_iff size ignHi sg32 ignLo).mp hw
  rfl

theorem decodeTagged_invalidWord (rest : BitVec 31) : decodeTagged (invalidWord rest) = .invalid rest := by
  generalize hw : invalidWord rest = w
  obtain ⟨rfl, hvalid⟩ := (invalidWord_eq_iff rest).mp hw
  exact decodeTagged_invalid hvalid.symm

theorem decodeTagged_reservedWord {tag : BitVec 3} {rest : BitVec 28} {i : BitVec 28 → Instr}
    (hdecode : ∀ w, field w 0 1 = 1#1 → field w 1 3 = tag → field w 4 28 = rest → decodeTagged w = i (field w 4 28)) :
    decodeTagged (reservedWord tag rest) = i rest := by
  generalize hw : reservedWord tag rest = w
  obtain ⟨hrest, htag, hvalid⟩ := (reservedWord_eq_iff tag rest).mp hw
  rw [hrest]
  exact hdecode w hvalid.symm htag.symm hrest.symm

/-- Settles O1: the fields of each word are those it was made of. -/
theorem descriptorRoundTrip : Obligations.DescriptorRoundTrip := by
  intro i p hwf hpos
  cases i with
  | cia mfg cid ccl => cases hpos; exact ⟨_, rfl, decodeTagged_ciaWord mfg cid ccl⟩
  | cib rev nsw nmw nsp nmp valid => cases hpos; exact ⟨_, rfl, decodeStream_cibWord rev nsw nmw nsp nmp valid⟩
  | mpd rsv mui mp => cases hpos; exact ⟨_, rfl, decodeTagged_mpdWord rsv mui mp⟩
  | asdSlave addr sp sz ag32 => cases hpos; exact ⟨_, rfl, decodeTagged_asdWord .slave addr sp sz ag32⟩
  | asdBridge addr sp sz ag32 => cases hpos; exact ⟨_, rfl, decodeTagged_asdWord .bridge addr sp sz ag32⟩
  | asdSwrap addr sp sz ag32 => cases hpos; exact ⟨_, rfl, decodeTagged_asdWord .swrap addr sp sz ag32⟩
  | asdMwrap addr sp sz ag32 => cases hpos; exact ⟨_, rfl, decodeTagged_asdWord .mwrap addr sp sz ag32⟩
  | addrHi w => cases hpos; exact ⟨w, rfl, rfl⟩
  | szd size ignHi sg32 ignLo => cases hpos; exact ⟨_, rfl, decodeStream_szdWord size ignHi sg32 ignLo⟩
  | sizeHi w => cases hpos; exact ⟨w, rfl, rfl⟩
  | endOnes => cases hpos; exact ⟨_, rfl, by decide⟩
  | endRom => cases hpos; exact ⟨_, rfl, by decide⟩
  | invalid rest => cases hpos; exact ⟨_, rfl, decodeTagged_invalidWord rest⟩
  | reserved011 rest =>
    cases hpos
    exact ⟨_, rfl, decodeTagged_reservedWord fun _ hvalid htag _ => decodeTagged_reserved011 hvalid htag⟩
  | reserved100 rest =>
    cases hpos
    exact ⟨_, rfl, decodeTagged_reservedWord fun _ hvalid htag _ => decodeTagged_reserved100 hvalid htag⟩
  | reserved101 rest =>
    cases hpos
    exact ⟨_, rfl, decodeTagged_reservedWord fun _ hvalid htag _ => decodeTagged_reserved101 hvalid htag⟩
  | reserved111 rest =>
    cases hpos
    have hrest : rest ≠ 0#28 ∧ rest ≠ BitVec.allOnes 28 := by simpa [Instr.wellFormed] using hwf
    exact ⟨_, rfl, decodeTagged_reservedWord fun _ hvalid htag h => decodeTagged_reserved111 hvalid htag (h ▸ hrest)⟩
  | attach | detach | scan | coreCount | coreId | coreRev | corePrimaryAddr | corePrimarySize | coreSecondaryAddr
  | coreSecondarySize | coreWrapperAddr | oobRouterAddr | switchTo | currentFocus | accessRegister | disable
  | reset | isUp | cflags | sflags | armTimeouts | clearTimeout => cases hpos

/-! ## Encode of decode -/

/-- The TAGs of no ASD (R101). -/
theorem tag_cases {tag : BitVec 3} (h : tag.extractLsb' 0 2 ≠ 2#2) :
    tag = 0#3 ∨ tag = 1#3 ∨ tag = 3#3 ∨ tag = 4#3 ∨ tag = 5#3 ∨ tag = 7#3 := by
  revert tag
  decide

/-- Bits 31:4 of a word of TAG 111 that is no END word. -/
theorem rest_of_not_end {w : Word} (hvalid : field w 0 1 = 1#1) (htag : field w 1 3 = 7#3)
    (hend : w ≠ 0xFFFFFFFF#32 ∧ w ≠ 0x0000000F#32) : field w 4 28 ≠ 0#28 ∧ field w 4 28 ≠ BitVec.allOnes 28 := by
  have hw : reservedWord 7 (field w 4 28) = w := (reservedWord_eq_iff _ _).mpr ⟨rfl, htag.symm, hvalid.symm⟩
  refine ⟨fun h => hend.2 ?_, fun h => hend.1 ?_⟩
  · rw [← hw, h]; decide
  · rw [← hw, h]; decide

/-- The instruction is well-formed, is read at a tagged position, and has this word. -/
structure TaggedEncoding (w : Word) (i : Instr) : Prop where
  word : encode i = [w]
  wellFormed : i.wellFormed = true
  position : i.position = some .tagged

/-- A valid word that is neither END nor ASD, by its TAG. -/
theorem taggedEncoding_of_valid {w : Word} (hvalid : field w 0 1 = 1#1)
    (hend : w ≠ 0xFFFFFFFF#32 ∧ w ≠ 0x0000000F#32) (hasd : field w 1 2 ≠ 2#2) :
    TaggedEncoding w (decodeTagged w) := by
  rcases tag_cases (field_tagLow w ▸ hasd) with htag | htag | htag | htag | htag | htag
  · rw [decodeTagged_cia hvalid htag]
    exact ⟨congrArg ([·]) ((ciaWord_eq_iff _ _ _).mpr ⟨rfl, rfl, rfl, htag.symm, hvalid.symm⟩), rfl, rfl⟩
  · rw [decodeTagged_mpd hvalid htag]
    exact ⟨congrArg ([·]) ((mpdWord_eq_iff _ _ _).mpr ⟨rfl, rfl, rfl, htag.symm, hvalid.symm⟩), rfl, rfl⟩
  · rw [decodeTagged_reserved011 hvalid htag]
    exact ⟨congrArg ([·]) ((reservedWord_eq_iff _ _).mpr ⟨rfl, htag.symm, hvalid.symm⟩), rfl, rfl⟩
  · rw [decodeTagged_reserved100 hvalid htag]
    exact ⟨congrArg ([·]) ((reservedWord_eq_iff _ _).mpr ⟨rfl, htag.symm, hvalid.symm⟩), rfl, rfl⟩
  · rw [decodeTagged_reserved101 hvalid htag]
    exact ⟨congrArg ([·]) ((reservedWord_eq_iff _ _).mpr ⟨rfl, htag.symm, hvalid.symm⟩), rfl, rfl⟩
  · have hrest := rest_of_not_end hvalid htag hend
    rw [decodeTagged_reserved111 hvalid htag hrest]
    exact ⟨congrArg ([·]) ((reservedWord_eq_iff _ _).mpr ⟨rfl, htag.symm, hvalid.symm⟩),
      by simpa [Instr.wellFormed] using hrest, rfl⟩

theorem taggedEncoding_asd {w : Word} (hvalid : field w 0 1 = 1#1) (hasd : field w 1 2 = 2#2) :
    TaggedEncoding w (decodeTagged w) := by
  obtain ⟨st, hst⟩ := exists_code_eq (field w 6 2)
  rw [decodeTagged_asd hvalid hasd, decodeAsd_eq hst]
  refine ⟨?_, asdInstr_wellFormed .., asdInstr_position ..⟩
  rw [encode_asdInstr]
  exact congrArg ([·]) ((asdWord_eq_iff ..).mpr ⟨rfl, rfl, hst.symm, rfl, rfl, hasd.symm, hvalid.symm⟩)

theorem taggedEncoding_decodeTagged (w : Word) : TaggedEncoding w (decodeTagged w) := by
  rcases BitVec.eq_zero_or_eq_one (field w 0 1) with hvalid | hvalid
  · rw [decodeTagged_invalid hvalid]
    exact ⟨congrArg ([·]) ((invalidWord_eq_iff _).mpr ⟨rfl, hvalid.symm⟩), rfl, rfl⟩
  · rcases eq_or_ne w 0xFFFFFFFF#32 with rfl | hones
    · exact ⟨by decide, by decide, by decide⟩
    · rcases eq_or_ne w 0x0000000F#32 with rfl | hrom
      · exact ⟨by decide, by decide, by decide⟩
      · by_cases hasd : field w 1 2 = 2#2
        · exact taggedEncoding_asd hvalid hasd
        · exact taggedEncoding_of_valid hvalid ⟨hones, hrom⟩ hasd

/-- Settles O3: at a tagged position by `taggedEncoding_decodeTagged`, elsewhere by the fields of the one kind. -/
theorem streamWordReencodes : Obligations.StreamWordReencodes := by
  intro p w
  have htagged := taggedEncoding_decodeTagged w
  cases p with
  | tagged => exact ⟨htagged.word, htagged.wellFormed, .inl htagged.position⟩
  | cib =>
    by_cases htag : field w 1 3 = 0#3
    · have hdecode : decodeStream .cib w = decodeCib w := if_pos htag
      rw [hdecode]
      exact ⟨congrArg ([·]) ((cibWord_eq_iff ..).mpr ⟨rfl, rfl, rfl, rfl, rfl, htag.symm, rfl⟩), rfl, .inl rfl⟩
    · have hdecode : decodeStream .cib w = decodeTagged w := if_neg htag
      rw [hdecode]
      exact ⟨htagged.word, htagged.wellFormed, .inr ⟨rfl, htag, htagged.position⟩⟩
  | addrHi => exact ⟨rfl, rfl, .inl rfl⟩
  | szd => exact ⟨congrArg ([·]) ((szdWord_eq_iff ..).mpr ⟨rfl, rfl, rfl, rfl⟩), rfl, .inl rfl⟩
  | sizeHi => exact ⟨rfl, rfl, .inl rfl⟩

end Sys2Proof

/-! PROOFS. The encoding of the commands (30_encoding.md R116 to R119): a command is read from its own words, and a
header with no assigned `OPC` from none. -/

namespace Sys2Proof

open Machine (assignedHeaders)

/-! ## Decode of encode -/

/-- A header without reserved bits is read by its `OPC` (R116). -/
theorem decodeCommand_header {h : Word} (hbits : field h 8 24 = 0#24) (ops : List Word) :
    decodeCommand (h :: ops) = decodeOpc (field h 0 8) ops := if_pos hbits

theorem pairWords_length (fast : List (Word × Word)) : (pairWords fast).length = 2 * fast.length := by
  induction fast with
  | nil => rfl
  | cons p rest ih => simp only [pairWords, List.length_cons, ih]; omega

theorem takePairs_pairWords (fast : List (Word × Word)) : takePairs (pairWords fast) = fast := by
  induction fast with
  | nil => rfl
  | cons p rest ih => rw [pairWords, takePairs, ih]

/-- The operands of an ATTACH: as many pairs are taken as the record counts (R118). -/
theorem decodeAttach_pairWords {n : Word} {fast : List (Word × Word)} (hlen : fast.length = n.toNat)
    (t g w c r p : Word) (rest : List Word) :
    decodeAttach (t :: g :: w :: c :: r :: p :: n :: (pairWords fast ++ rest)) =
      .command (.attach t g w c r p n fast) rest := by
  have hpairs : 2 * n.toNat = (pairWords fast).length := by rw [pairWords_length, hlen]
  have henough : 2 * n.toNat ≤ (pairWords fast ++ rest).length := by
    rw [hpairs, List.length_append]
    exact Nat.le_add_right _ _
  rw [decodeAttach, if_pos henough, hpairs, List.take_left, List.drop_left, takePairs_pairWords]

/-- Settles O2: a header selects its command, which takes its own operands; for ATTACH, `decodeAttach_pairWords`. -/
theorem commandRoundTrip : Obligations.CommandRoundTrip := by
  intro i rest hwf hpos
  cases i with
  | attach t g w c r p n fast =>
    have hlen : fast.length = n.toNat := by simpa [Instr.wellFormed] using hwf
    exact decodeAttach_pairWords hlen t g w c r p rest
  | detach | scan | coreCount | oobRouterAddr | currentFocus | armTimeouts | clearTimeout => rfl
  | coreId index | coreRev index | corePrimaryAddr index | corePrimarySize index | coreSecondaryAddr index
  | coreSecondarySize index | coreWrapperAddr index | switchTo index | isUp index => rfl
  | disable index ioBits => rfl
  | reset index ioBits resetOnlyBits => rfl
  | cflags index mask value | sflags index mask value => rfl
  | accessRegister index offset mask value => rfl
  | cia | cib | mpd | asdSlave | asdBridge | asdSwrap | asdMwrap | addrHi | szd | sizeHi | endOnes | endRom
  | invalid | reserved011 | reserved100 | reserved101 | reserved111 => cases hpos

/-! ## Headers that are no command (R119) -/

theorem assigned_of_toNat {opc : BitVec 8} {n : Nat} (hopc : opc.toNat = n)
    (hn : BitVec.ofNat 32 n ∈ assignedHeaders) : opc.setWidth 32 ∈ assignedHeaders := by
  subst hopc
  rwa [BitVec.ofNat_toNat] at hn

theorem decodeOpc_unassigned {opc : BitVec 8} (hopc : opc.setWidth 32 ∉ assignedHeaders) (ops : List Word) :
    decodeOpc opc ops = .unassigned opc := by
  unfold decodeOpc
  split
  case h_23 => rfl
  all_goals exact absurd (assigned_of_toNat ‹_› (by decide)) hopc

/-- A header without reserved bits is its `OPC` alone. -/
theorem header_eq_opc {h : Word} (hbits : field h 8 24 = 0#24) : (field h 0 8).setWidth 32 = h := by
  calc (field h 0 8).setWidth 32
    _ = (0#24 ++ field h 0 8 : BitVec (24 + 8)) := by
      refine BitVec.eq_of_toNat_eq ((BitVec.toNat_setWidth_of_le (by decide)).trans ?_)
      rw [BitVec.toNat_append, BitVec.toNat_ofNat, Nat.zero_mod, Nat.zero_shiftLeft, Nat.zero_or]
    _ = field h 0 (24 + 8) := (append_eq_field_iff _ _).mpr ⟨hbits.symm, rfl⟩
    _ = h := field_all h

theorem decodeCommand_reservedBits {h : Word} (hbits : field h 8 24 ≠ 0#24) (ops : List Word) :
    decodeCommand (h :: ops) = .reservedBits := if_neg hbits

theorem decodeCommand_unassigned {h : Word} (hbits : field h 8 24 = 0#24) (hh : h ∉ assignedHeaders)
    (ops : List Word) : decodeCommand (h :: ops) = .unassigned (field h 0 8) := by
  rw [decodeCommand_header hbits]
  exact decodeOpc_unassigned ((header_eq_opc hbits).symm ▸ hh) ops

/-! ## Words written out -/

/-- Settles O4: each word evaluated. -/
theorem sampleWordsDecode : Obligations.SampleWordsDecode := by
  refine ⟨?_, ?_, ?_, ?_, ?_, ?_, ?_, ?_, ?_, ?_⟩ <;> decide

end Sys2Proof

/-! PROOFS. One step between scans (30_encoding.md R116, R119; 60_exceptions.md R439, 70_reset_and_hazards.md R470,
R471): the command at the head of the port is run, and what the block refuses. -/

namespace Sys2Proof.Machine

/-! ## What the port holds -/

section Between

variable {s : State}

theorem step_command {i : Instr} {rest : List Word} (hbusy : s.busy = false)
    (h : decodeCommand s.commands = .command i rest) : step s = exec i { s with commands := rest } := by
  rw [step, fetch_between hbusy, fetchCommand, h]

theorem step_waits (hbusy : s.busy = false)
    (h : decodeCommand s.commands = .idle ∨ decodeCommand s.commands = .incomplete) : step s = .next s := by
  rw [step, fetch_between hbusy, fetchCommand]
  rcases h with h | h <;> rw [h]

theorem step_reservedBits (hbusy : s.busy = false) (h : decodeCommand s.commands = .reservedBits) :
    step s = .refused .reservedHeaderBits := by
  rw [step, fetch_between hbusy, fetchCommand, h]

theorem step_unassigned {opc : BitVec 8} (hbusy : s.busy = false) (h : decodeCommand s.commands = .unassigned opc) :
    step s = .refused (.unassignedOpcode opc) := by
  rw [step, fetch_between hbusy, fetchCommand, h]

/-- Settles O5: the fetch between scans, on what the port decodes to. -/
theorem stepRunsCommand : Obligations.StepRunsCommand :=
  fun _ hbusy => ⟨fun _ _ => step_command hbusy, step_waits hbusy⟩

end Between

/-! ## Refused commands (R119) -/

section Refused

variable {s : State} {i : Instr}

theorem command_busy (body : State → List Word × State) (hbusy : s.busy = true) :
    command body s = .refused .commandWhileBusy := by
  simp [command, hbusy]

theorem command_detached (body : State → List Word × State) (hbusy : s.busy = false) (hatt : s.attached = false) :
    command body s = .refused .detached := by
  simp [command, hbusy, hatt]

theorem lifecycleCommand_eq_command (index : Word) (run : Addr → State → Unit × State) :
    ∃ body, ∀ s, lifecycleCommand index run s = command body s := ⟨_, fun _ => by exact rfl⟩

theorem flagsCommand_eq_command (x : Addr) (index mask value : Word) :
    ∃ body, ∀ s, flagsCommand x index mask value s = command body s := ⟨_, fun _ => by exact rfl⟩

/-- Every command but ATTACH and SCAN is one that ends in its own step. -/
theorem exec_eq_command (hpos : i.position = none) (hattach : isAttach i = false) (hscan : i ≠ .scan) :
    ∃ body, ∀ s, exec i s = command body s := by
  cases i with
  | attach => cases hattach
  | scan => exact absurd rfl hscan
  | detach | coreCount | coreId | coreRev | corePrimaryAddr | corePrimarySize | coreSecondaryAddr | coreSecondarySize
  | coreWrapperAddr | oobRouterAddr | switchTo | currentFocus | accessRegister | isUp | armTimeouts | clearTimeout =>
    exact ⟨_, fun _ => by unfold exec; exact rfl⟩
  | disable | reset => exact lifecycleCommand_eq_command _ _
  | cflags | sflags => exact flagsCommand_eq_command _ _ _ _
  | cia | cib | mpd | asdSlave | asdBridge | asdSwrap | asdMwrap | addrHi | szd | sizeHi | endOnes | endRom
  | invalid | reserved011 | reserved100 | reserved101 | reserved111 => cases hpos

theorem exec_attach_busy (hattach : isAttach i = true) (hbusy : s.busy = true) :
    exec i s = .refused .commandWhileBusy := by
  cases i with
  | attach => exact if_pos hbusy
  | _ => cases hattach

theorem exec_attach_attached (hattach : isAttach i = true) (hbusy : s.busy = false) (hatt : s.attached = true) :
    exec i s = .refused .alreadyAttached := by
  cases i with
  | attach => simp [exec, execAttach, hbusy, hatt]
  | _ => cases hattach

theorem exec_busy (hpos : i.position = none) (hbusy : s.busy = true) : exec i s = .refused .commandWhileBusy := by
  cases hattach : isAttach i
  · by_cases hscan : i = .scan
    · subst hscan
      exact if_pos hbusy
    · obtain ⟨body, hbody⟩ := exec_eq_command hpos hattach hscan
      rw [hbody, command_busy body hbusy]
  · exact exec_attach_busy hattach hbusy

theorem exec_detached (hpos : i.position = none) (hbusy : s.busy = false) (hatt : s.attached = false)
    (hattach : isAttach i = false) : exec i s = .refused .detached := by
  by_cases hscan : i = .scan
  · subst hscan
    simp [exec, execScan, hbusy, hatt]
  · obtain ⟨body, hbody⟩ := exec_eq_command hpos hattach hscan
    rw [hbody, command_detached body hbusy hatt]

/-- Settles O8: the commands by `exec_eq_command`, the headers by what they decode to. -/
theorem refusedCommands : Obligations.RefusedCommands := by
  refine ⟨fun s i hpos => ⟨exec_busy hpos, exec_detached hpos, fun hbusy hatt hattach =>
    exec_attach_attached hattach hbusy hatt⟩, fun s h ops hbusy hport => ⟨fun hbits => ?_, fun hbits hh => ?_⟩⟩
  · exact step_reservedBits hbusy (hport ▸ decodeCommand_reservedBits hbits ops)
  · exact step_unassigned hbusy (hport ▸ decodeCommand_unassigned hbits hh ops)

end Refused

/-! ## Right after reset (R470) -/

/-- Settles O11: the port decodes by `commandRoundTrip`; then `exec_detached`, and for ATTACH `exec_attach_ok`. -/
theorem resetAcceptsOnlyAttach : Obligations.ResetAcceptsOnlyAttach := by
  refine ⟨fun i rest hwf hpos hattach => ?_, fun g c r p rest hg => ?_⟩
  · rw [step_command (s := { State.reset with commands := encode i ++ rest }) rfl (commandRoundTrip i rest hwf hpos)]
    exact exec_detached hpos rfl rfl hattach
  · have hrange : AttachInRange 0 g 0 0 := ⟨by decide, hg, fun h => absurd rfl h, by decide, fun _ => rfl⟩
    rw [step_command (s := { State.reset with commands := _ }) rfl
      (commandRoundTrip (.attach 0 g 0 c r p 0 []) rest rfl rfl)]
    exact ⟨_, exec_attach_ok rfl rfl (attachCfg_inRange rfl hrange), rfl, rfl, rfl⟩

end Sys2Proof.Machine

/-! PROOFS. What a descriptor word does at each control point of a SCAN in progress (40_stream_reader.md R152 to R158,
41_topology_scan.md R198, R205, R222). -/

namespace Sys2Proof.Machine

/-! ## A word at its position -/

section Positions

variable {s : State} {w : Word} {onIdentity : State → State} {onMpd : Nat → State → State}
  {onAsd : AsdSite → State → State}

theorem taggedWord_identity (hbusy : s.busy = true) (hpos : s.scan.pos = .identity) :
    taggedWord w onIdentity onMpd onAsd s = .next (onIdentity s) := by
  simp only [taggedWord, hbusy, hpos, if_true]

theorem taggedWord_mpd {left : Nat} (hbusy : s.busy = true) (hpos : s.scan.pos = .mpd left) :
    taggedWord w onIdentity onMpd onAsd s = .next (onMpd left s) := by
  simp only [taggedWord, hbusy, hpos, if_true]

theorem taggedWord_asd {site : AsdSite} (hbusy : s.busy = true) (hpos : s.scan.pos = .asd site) :
    taggedWord w onIdentity onMpd onAsd s = .next (onAsd site s) := by
  simp only [taggedWord, hbusy, hpos, if_true]

theorem positionalWord_addrHi {site : AsdSite} {lo : Word} {sz : BitVec 2} (hbusy : s.busy = true)
    (hpos : s.scan.pos = .addrHi site lo sz) : positionalWord w s = .next (s.takeAddrHi site lo sz w) := by
  simp only [positionalWord, hbusy, hpos, if_true]

theorem positionalWord_szd {site : AsdSite} {addr : Addr} (hbusy : s.busy = true)
    (hpos : s.scan.pos = .szd site addr) : positionalWord w s = .next (s.takeSzd site addr w) := by
  simp only [positionalWord, hbusy, hpos, if_true]

end Positions

/-! ## The words of a kind -/

section Kinds

variable {i : Instr}

/-- An ASD head is tried at a TryASD, and is no master-port descriptor. -/
theorem exec_asdFields {st : AsdType} {addr : BitVec 20} {sp : BitVec 4} {sz : BitVec 2} {ag32 : BitVec 1}
    (h : asdFields i = some (st, addr, sp, sz, ag32)) (s : State) :
    exec i s = taggedWord (asdWord st.code addr sp sz ag32) State.skip State.notMpd
      (State.asdHead st addr sp sz ag32) s := by
  cases i with
  | asdSlave | asdBridge | asdSwrap | asdMwrap => cases h; rfl
  | _ => cases h

/-- Every valid word but an MPD ends the scan where a master-port descriptor must stand (R154). -/
theorem exec_notMpd (hvalid : validTagged i = true) (hmpd : ∀ r u p, i ≠ .mpd r u p) :
    ∃ w onIdentity onAsd, ∀ s, exec i s = taggedWord w onIdentity State.notMpd onAsd s := by
  cases i with
  | mpd rsv mui mp => exact absurd rfl (hmpd rsv mui mp)
  | cia | asdSlave | asdBridge | asdSwrap | asdMwrap | endOnes | endRom | reserved011 | reserved100 | reserved101
  | reserved111 => exact ⟨_, _, _, fun _ => rfl⟩
  | _ => cases hvalid

/-- The words that the identity search passes over (R153). -/
theorem exec_skippedAtIdentity (h : skippedAtIdentity i = true) :
    ∃ w onMpd onAsd, ∀ s, exec i s = taggedWord w State.skip onMpd onAsd s := by
  cases i with
  | mpd | asdSlave | asdBridge | asdSwrap | asdMwrap | reserved011 | reserved100 | reserved101 | reserved111 =>
    exact ⟨_, _, _, fun _ => rfl⟩
  | _ => cases h

/-- END at the identity search is the success epilogue (R198). -/
theorem exec_end {s : State} (h : i = .endOnes ∨ i = .endRom) (hbusy : s.busy = true)
    (hpos : s.scan.pos = .identity) : exec i s = .next s.scanDone := by
  rcases h with rfl | rfl
  · exact taggedWord_identity hbusy hpos
  · exact taggedWord_identity hbusy hpos

end Kinds

/-! ## The identity search and the master ports -/

/-- A CIA at the identity search opens a component (R102, R153, R155). -/
theorem exec_cia {s : State} {mfg cid : BitVec 12} {ccl : BitVec 4} (hbusy : s.busy = true)
    (hpos : s.scan.pos = .identity) : exec (.cia mfg cid ccl) s =
      .next { s with scan := { s.scan with cia := ciaWord mfg cid ccl, pos := .cib } } := by
  unfold exec execCia
  exact taggedWord_identity hbusy hpos

/-- An invalid word is passed over at every tagged position (R152). -/
theorem exec_invalid {s : State} (rest : BitVec 31) (hbusy : s.busy = true)
    (hpos : s.scan.pos.position = .tagged) : exec (.invalid rest) s = .next s := by
  cases hp : s.scan.pos with
  | identity => exact taggedWord_identity hbusy hp
  | mpd left => exact taggedWord_mpd hbusy hp
  | asd site => exact taggedWord_asd hbusy hp
  | cib | addrHi | szd | sizeHi => rw [hp] at hpos; cases hpos

/-- Settles O14: a CIA, the kinds of `exec_skippedAtIdentity`, and `exec_invalid`. -/
theorem identitySearch : Obligations.IdentitySearch := by
  refine ⟨fun s m c l hbusy hpos => exec_cia hbusy hpos, fun s i hbusy hpos h => ?_,
    fun s r hbusy hpos => exec_invalid r hbusy hpos⟩
  obtain ⟨w, onMpd, onAsd, hexec⟩ := exec_skippedAtIdentity h
  rw [hexec]
  exact taggedWord_identity hbusy hpos

/-- Settles O16: an MPD is counted (`State.takeMpd`), any other valid word is one of `exec_notMpd`. -/
theorem mpdRule : Obligations.MpdRule := by
  intro s n hbusy hpos
  have hmpd : ∀ r u p, exec (.mpd r u p) s = .next (s.takeMpd n) := fun r u p => taggedWord_mpd hbusy hpos
  refine ⟨fun r u p hn => ?_, fun r u p hn => ?_, fun i hvalid hother => ?_⟩
  · rw [hmpd, State.takeMpd, if_neg (Nat.not_le.mpr hn)]
    rfl
  · rw [hmpd, State.takeMpd, if_pos hn]
    rfl
  · obtain ⟨w, onIdentity, onAsd, hexec⟩ := exec_notMpd hvalid hother
    rw [hexec]
    exact taggedWord_mpd hbusy hpos

/-! ## The words of an ASD unit (R156 to R158) -/

theorem hiLo_zero_append (addr : BitVec 20) : hiLo 0 (addr ++ 0#12) = 0#32 ++ addr ++ 0#12 := by
  rw [BitVec.append_assoc]
  rfl

/-- The size bits of an SZD are its bits 31:12 (R110). -/
theorem szdWord_and_mask (size : BitVec 20) (ignHi : BitVec 8) (sg32 : BitVec 1) (ignLo : BitVec 3) :
    szdWord size ignHi sg32 ignLo &&& 0xFFFFF000#32 = size ++ 0#12 :=
  calc szdWord size ignHi sg32 ignLo &&& 0xFFFFF000#32
    _ = (size ++ ignHi ++ sg32 ++ ignLo) &&& (BitVec.allOnes 20 ++ 0#8 ++ 0#1 ++ 0#3) := rfl
    _ = size ++ 0#8 ++ 0#1 ++ 0#3 := by simp only [BitVec.and_append, BitVec.and_allOnes, BitVec.and_zero]
    _ = size ++ 0#12 := by rw [BitVec.append_assoc, BitVec.append_assoc]; rfl

theorem szdWord_sg32 (size : BitVec 20) (ignHi : BitVec 8) (sg32 : BitVec 1) (ignLo : BitVec 3) :
    field (szdWord size ignHi sg32 ignLo) 3 1 = sg32 := by
  obtain ⟨-, -, hsg32, -⟩ := (szdWord_eq_iff size ignHi sg32 ignLo).mp rfl
  exact hsg32.symm

/-- An accepted head (R156). -/
theorem asdHead_accepted {s : State} {site : AsdSite} {st : AsdType} {sp : BitVec 4}
    (hwants : (sp.toNat, st) = site.wants s.scan.nsp) (addr : BitVec 20) (sz : BitVec 2) (ag32 : BitVec 1) :
    s.asdHead st addr sp sz ag32 site =
      if ag32 = 1#1 then s.goTo (.addrHi site (addr ++ 0#12) sz) else s.unitAddr site (hiLo 0 (addr ++ 0#12)) sz :=
  if_pos hwants

/-- A size code of 3 is followed by an SZD (R107, R110). -/
theorem unitAddr_szd (s : State) (site : AsdSite) (addr : Addr) :
    s.unitAddr site addr 3#2 = s.goTo (.szd site addr) := if_pos rfl

/-- An SZD with SG32 = 1 is followed by a SIZE_HI (R110, R111). -/
theorem takeSzd_sizeHi (s : State) (site : AsdSite) (addr : Addr) (size : BitVec 20) (ignHi : BitVec 8)
    (ignLo : BitVec 3) : s.takeSzd site addr (szdWord size ignHi 1#1 ignLo) =
      s.goTo (.sizeHi site addr (size ++ 0#12)) := by
  rw [State.takeSzd, if_pos (szdWord_sg32 ..), szdWord_and_mask]

/-- Settles O17: the word that a head, an ADDR_HI or an SZD is followed by. -/
theorem unitContinues : Obligations.UnitContinues := by
  intro s site hbusy
  refine ⟨fun i st a sp sz ag hpos hfields hwants => ?_, fun lo w hpos => ?_, fun addr size h l hpos => ?_⟩
  · rw [exec_asdFields hfields, taggedWord_asd hbusy hpos, asdHead_accepted hwants]
    refine ⟨fun hag => ?_, fun hag hsz => ?_⟩
    · rw [if_pos hag]
      rfl
    · rw [if_neg (by simp [hag]), hsz, unitAddr_szd, hiLo_zero_append]
      rfl
  · exact (positionalWord_addrHi hbusy hpos).trans (congrArg _ (unitAddr_szd s site _))
  · exact (positionalWord_szd hbusy hpos).trans (congrArg _ (takeSzd_sizeHi s site addr size h l))

/-! ## END (R198, R222) -/

/-- SWITCH_TO(0) on Flat with nothing mapped yet (R281). -/
theorem focusFlat_unmapped {s : State} (hreg : s.mapReg = []) (hwrap : s.mapWrap = []) (d : CoreDescriptor) :
    s.focusFlat 0#32 d = { s with
      trace := s.trace ++ [.map d.primaryAddr 0x1000#64] ++ d.wrapperAddr.elim [] fun wb => [.map wb 0x1000#64]
      mapReg := [some d.primaryAddr]
      mapWrap := d.wrapperAddr.elim [] fun wb => [some wb]
      focus := { idx := some 0#32, reg := some (.mapped d.primaryAddr), wrap := d.wrapperAddr.map .mapped } } := by
  unfold State.focusFlat State.mapWrapper State.mapCore
  cases d.wrapperAddr with
  | none => simp [hreg, hwrap, cacheGet, cacheSet, State.map, State.emit, Config.coreWindowSize]
  | some wb => simp [hreg, hwrap, cacheGet, cacheSet, State.map, State.emit, Config.coreWindowSize]

/-- Settles O24: the epilogue is a switch to core 0 of the table just made, on each transport. -/
theorem endFinishesScan : Obligations.EndFinishesScan := by
  intro s i hbusy hpos hreg hwrap hend done
  have hexec : exec i s = .next (done.switchTo 0#32) := exec_end hend hbusy hpos
  have hrow : done.row 0#32 = s.scan.rows.head? := List.head?_eq_getElem?.symm
  refine ⟨fun hrows => ?_, fun d rest hrows hflat => ?_, fun d rest hrows hwindowed => ?_⟩
  · have hnone : done.row 0#32 = none := by rw [hrow, hrows]; rfl
    rw [hexec, switchTo_none hnone]
  · have hd : done.row 0#32 = some d := by rw [hrow, hrows]; rfl
    rw [hexec, switchTo_flat hd ((flat_iff done).mpr hflat), focusFlat_unmapped (s := done) hreg hwrap]
    cases d.wrapperAddr <;> rfl
  · have hd : done.row 0#32 = some d := by rw [hrow, hrows]; rfl
    have hf : done.flat = false := by
      rw [← Bool.not_eq_true, flat_iff]
      exact hwindowed
    exact hexec.trans (congrArg _ (switchTo_windowed hd hf))

end Sys2Proof.Machine

/-! PROOFS. The queries (42_core_table.md R250 to R258): each answers its words and changes nothing. -/

namespace Sys2Proof.Machine

section Queries

variable {s : State} {i : Word} {d : CoreDescriptor}

/-- A query of a ready block gives its answer and no more. -/
theorem command_query (answer : State → List Word) (hready : s.ready) :
    command (fun t => (answer t, t)) s = .next (s.answers (answer s.begin)) := command_ready _ s hready

theorem exec_coreId (hready : s.ready) (hrow : s.row i = some d) :
    exec (.coreId i) s = .next (s.answers [d.coreId.setWidth 32, 0#32]) := by
  simp only [exec, execCoreId, command_query _ hready, row_begin, hrow]
  rfl

theorem exec_coreRev (hready : s.ready) (hrow : s.row i = some d) :
    exec (.coreRev i) s = .next (s.answers [s.params.remappedRev s.cfg.family d.coreId d.rawRev, 0#32]) := by
  simp only [exec, execCoreRev, command_query _ hready, row_begin, hrow]
  rfl

theorem exec_corePrimaryAddr (hready : s.ready) (hrow : s.row i = some d) :
    exec (.corePrimaryAddr i) s = .next (s.answers (answer64 d.primaryAddr .ok)) := by
  simp only [exec, execCorePrimaryAddr, command_query _ hready, row_begin, hrow]

theorem exec_corePrimarySize (hready : s.ready) (hrow : s.row i = some d) :
    exec (.corePrimarySize i) s = .next (s.answers (answer64 d.primarySize .ok)) := by
  simp only [exec, execCorePrimarySize, command_query _ hready, row_begin, hrow]

theorem exec_coreSecondaryAddr (hready : s.ready) (hrow : s.row i = some d) :
    exec (.coreSecondaryAddr i) s = .next (s.answers (answerOpt64 d.secondaryAddr .ok)) := by
  simp only [exec, execCoreSecondaryAddr, command_query _ hready, row_begin, hrow]

theorem exec_coreSecondarySize (hready : s.ready) (hrow : s.row i = some d) :
    exec (.coreSecondarySize i) s = .next (s.answers (answerOpt64 d.secondarySize .ok)) := by
  simp only [exec, execCoreSecondarySize, command_query _ hready, row_begin, hrow]

theorem exec_coreWrapperAddr (hready : s.ready) (hrow : s.row i = some d) :
    exec (.coreWrapperAddr i) s = .next (s.answers (answerOpt64 d.wrapperAddr .ok)) := by
  simp only [exec, execCoreWrapperAddr, command_query _ hready, row_begin, hrow]

theorem exec_coreCount (hready : s.ready) : exec .coreCount s =
    .next (s.answers [s.count, s.scanStatus.code, s.scanStatus.causeWord, 0#32]) := by
  simp only [exec, execCoreCount, command_query _ hready]
  rfl

theorem exec_oobRouterAddr (hready : s.ready) :
    exec .oobRouterAddr s = .next (s.answers (answerOpt64 s.oob .ok)) := by
  simp only [exec, execOobRouterAddr, command_query _ hready, begin_oob]

end Queries

/-- The cause word of an unindexed cause is its code (R421). -/
theorem causeWord_unindexed {c : ParseCause} (h : c.index = 0) : c.word = BitVec.ofNat 32 c.code := by
  simp [ParseCause.word, h]

/-- Settles O30: each query by its lemma, the cause word cause by cause. -/
theorem queriesAnswer : Obligations.QueriesAnswer := by
  unfold Obligations.QueriesAnswer
  intro indexed causeWord
  refine ⟨fun s i d hready hrow => ?_, fun s hready => ⟨?_, ?_⟩⟩
  · intro optional
    have hoptional : ∀ v, answerOpt64 v .ok = optional v := fun v => by cases v <;> rfl
    refine ⟨exec_coreId hready hrow, exec_coreRev hready hrow, exec_corePrimaryAddr hready hrow,
      exec_corePrimarySize hready hrow, ?_, ?_, ?_⟩
    · rw [exec_coreSecondaryAddr hready hrow, hoptional]
    · rw [exec_coreSecondarySize hready hrow, hoptional]
    · rw [exec_coreWrapperAddr hready hrow, hoptional]
  · have hcause : ∀ c : ParseCause, c.word = causeWord c := fun c => by
      cases c with
      | spEmpty | mwMissing | mwSize | swMissing | swSize => rfl
      | noEnd | eromPtr | badCib | badMpd | firstAsd | high | bwsFull | tableFull => exact causeWord_unindexed rfl
    rw [exec_coreCount hready]
    cases s.scanStatus with
    | never | ok => rfl
    | parseError c n =>
      dsimp only
      rw [← hcause]
      rfl
  · rw [exec_oobRouterAddr hready]
    cases s.oob <;> rfl

end Sys2Proof.Machine

/-! PROOFS. How a scan ends, and where its cursor goes (40_stream_reader.md R151, R156, R226, 41_topology_scan.md R198,
R221, R222). A word that ends the scan is END at the identity search or fails the parse (`exec_ends_scan`); what each
end leaves is said of the state the word is run in, and carried back over the read that precedes it. -/

namespace Sys2Proof.Machine

section ScanEnd

variable {s t u : State}

/-! ## What a ParseError leaves (R221, R424) -/

/-- The failure epilogue after whatever of the word was worked off. -/
theorem Parsing.scanFailed (h : Parsing s u) (c : ParseCause) : s.ScanFailed (u.parseFail c) c where
  busy := rfl
  attached := (congrArg State.attached h.frame :)
  cfg := (congrArg State.cfg h.frame :)
  params := (congrArg State.params h.frame :)
  commands := (congrArg State.commands h.frame :)
  resetting := (congrArg State.resetting h.frame :)
  irqSaved := (congrArg State.irqSaved h.frame :)
  traceMark := (congrArg State.traceMark h.frame :)
  attachMark := (congrArg State.attachMark h.frame :)
  mem := (congrArg (·.bus.mem) h.frame :)
  device := (congrArg (·.bus.device) h.frame :)
  lim := h.stream.1
  eromBase := h.stream.2
  staged := rfl
  status := rfl
  response := rfl
  table := rfl
  bws := rfl
  oob := rfl
  focus := ⟨rfl, rfl, rfl⟩
  mapReg := (congrArg State.mapReg h.frame :)
  mapWrap := (congrArg State.mapWrap h.frame :)
  winReg := (congrArg State.winReg h.frame :)
  winWrap := (congrArg State.winWrap h.frame :)
  log := h.warnings

/-! ## What END leaves (R198, R222) -/

theorem switchTo_focus_idx (i : Word) (s : State) :
    (s.switchTo i).focus.idx = if s.row i = none then s.focus.idx else some i := by
  cases hrow : s.row i with
  | none => rw [switchTo_none hrow]; rfl
  | some d =>
    cases hf : s.flat
    · rw [switchTo_windowed hrow hf]; rfl
    · rw [switchTo_flat hrow hf, focusFlat_focus]; rfl

/-- The success epilogue before core 0 gets the focus: the staged rows are the table. -/
def State.scanStored (s : State) : State :=
  { s with table := s.scan.rows, scanStatus := .ok, scan := { s.scan with rows := [] }
           busy := false, response := answerStatus .ok }

theorem scanDone_eq_switchTo (s : State) : s.scanDone = s.scanStored.switchTo 0#32 := rfl

/-- There is a core 0 to switch to if any row was staged. -/
theorem scanStored_row_eq_none : s.scanStored.row 0#32 = none ↔ s.scan.rows = [] := by
  simp [State.row, State.scanStored]

theorem scanDone_succeeded (hpos : s.scan.pos = .identity) : s.ScanSucceeded s.scanDone := by
  obtain ⟨es, ha, -, hirq, hbus⟩ := scanDone_acts s
  have hfocus : s.scanDone.focus.idx = if s.scan.rows = [] then s.focus.idx else some 0#32 := by
    rw [scanDone_eq_switchTo, switchTo_focus_idx]
    simp only [scanStored_row_eq_none]
    rfl
  exact {
    busy := ha.busy, attached := ha.attached, cfg := ha.cfg, params := ha.params, commands := ha.commands
    resetting := ha.resetting, irqSaved := hirq, traceMark := ha.traceMark, attachMark := ha.attachMark
    mem := congrArg Bus.mem hbus, device := congrArg Bus.device hbus
    lim := (congrArg ScanRegs.lim ha.scan :), eromBase := (congrArg ScanRegs.eromBase ha.scan :)
    staged := congrArg ScanRegs.rows ha.scan, pos := hpos, status := ha.scanStatus, response := ha.response
    table := ha.table, bws := ha.bws, oob := ha.oob, focus := hfocus
    log := ha.log.trans (List.append_nil _) }

/-- After END only the Maps or WinSets of the switch to core 0 follow, and none where there is no core. -/
theorem scanDone_trace (s : State) :
    ∃ es, s.scanDone.trace = s.trace ++ es ∧ (∀ e ∈ es, e.isSwitch = true) ∧ (s.scan.rows = [] → es = []) := by
  obtain ⟨es, ha, hswitch, -⟩ := switchTo_acts 0#32 s.scanStored
  refine ⟨es, ha.trace, fun e he => ?_, fun hrows => ?_⟩
  · rcases hswitch e he with ⟨a, n, rfl⟩ | ⟨w, b, rfl⟩ <;> rfl
  · have htrace := ha.trace
    rw [switchTo_none (scanStored_row_eq_none.mpr hrows)] at htrace
    exact List.self_eq_append_right.mp htrace

/-! ## The word that ends a scan -/

/-- At the identity search the scan goes on after every word but END (R152, R153). -/
theorem exec_identity_busy {i : Instr} (hpos : i.position ≠ none) (hend : ¬(i = .endOnes ∨ i = .endRom))
    (hidentity : s.scan.pos = .identity) (hbusy : s.busy = true) (h : exec i s = .next t) : t.busy = true := by
  have hskipped (hi : skippedAtIdentity i = true) : t.busy = true := by
    obtain ⟨w, onMpd, onAsd, hexec⟩ := exec_skippedAtIdentity hi
    rw [hexec, taggedWord_identity hbusy hidentity] at h
    cases h
    exact hbusy
  have hpositional (w : Word) : positionalWord w s = .fault .notAtItsPosition := by
    simp only [positionalWord, hbusy, hidentity, if_true]
  cases i with
  | cia mfg cid ccl => rw [exec_cia hbusy hidentity] at h; cases h; exact hbusy
  | invalid rest => rw [exec_invalid rest hbusy (by rw [hidentity]; rfl)] at h; cases h; exact hbusy
  | mpd | asdSlave | asdBridge | asdSwrap | asdMwrap | reserved011 | reserved100 | reserved101 | reserved111 =>
    exact hskipped rfl
  | cib | addrHi | szd | sizeHi => cases (hpositional _).symm.trans h
  | endOnes => exact absurd (.inl rfl) hend
  | endRom => exact absurd (.inr rfl) hend
  | _ => exact absurd rfl hpos

/-- A word that ends the scan is END at the identity search, or the parse fails at it. -/
theorem exec_ends_scan {i : Instr} (hpos : i.position ≠ none) (h : exec i s = .next t) (ht : t.busy = false) :
    (t = s.scanDone ∧ s.scan.pos = .identity ∧ (i = .endOnes ∨ i = .endRom)) ∨
      ∃ u c, Parsing s u ∧ t = u.parseFail c := by
  obtain ⟨hbusy, heffect⟩ := exec_wordEffect hpos h
  cases heffect with
  | going hparse =>
    have hgoing : t.busy = s.busy := (congrArg State.busy hparse.frame :)
    cases ht.symm.trans (hgoing.trans hbusy)
  | failed hparse c => exact .inr ⟨_, c, hparse, rfl⟩
  | done hidentity =>
    refine .inl ⟨rfl, hidentity, ?_⟩
    by_contra hend
    cases ht.symm.trans (exec_identity_busy hpos hend hidentity hbusy h)

/-- END is read from one of the two END words (R112). -/
theorem word_of_decodeStream_end {p : Position} {w : Word}
    (h : decodeStream p w = .endOnes ∨ decodeStream p w = .endRom) : w = 0xFFFFFFFF#32 ∨ w = 0x0000000F#32 := by
  have hword := (streamWordReencodes p w).1
  rcases h with h | h <;> rw [h] at hword
  · exact .inl (List.singleton_inj.mp hword).symm
  · exact .inr (List.singleton_inj.mp hword).symm

/-! ## The read before the word (R150, R151) -/

theorem advance_trace (s : State) : s.advance.2.trace = s.trace ++ [.memRead .plain s.streamPa s.advance.1] := rfl

theorem advance_cur (s : State) : s.advance.2.scan.cur = s.scan.cur + 1#32 := rfl

/-- The end of a scan is the same told from before the read: of what it keeps, the read changes nothing. -/
theorem State.ScanEndFrame.of_advance (h : s.advance.2.ScanEndFrame t) : s.ScanEndFrame t := { h with }

theorem State.ScanFailed.of_advance {c : ParseCause} (h : s.advance.2.ScanFailed t c) : s.ScanFailed t c :=
  { h with toScanEndFrame := h.toScanEndFrame.of_advance }

theorem State.ScanSucceeded.of_advance (h : s.advance.2.ScanSucceeded t) : s.ScanSucceeded t :=
  { h with toScanEndFrame := h.toScanEndFrame.of_advance }

/-- After a step that leaves the scan in progress, a word below the limit was read and partly worked off. -/
theorem step_parsing (hbusy : s.busy = true) (h : step s = .next t) (ht : t.busy = true) :
    s.scan.cur < s.scan.lim ∧ Parsing s.advance.2 t := by
  cases step_run h with
  | noEnd => cases ht
  | word _ hcur heffect => exact ⟨hcur, heffect.going_of_busy ht⟩
  | waiting hidle => cases hidle.symm.trans hbusy
  | command hidle => cases hidle.symm.trans hbusy

end ScanEnd

/-- Settles O27: from the cursor past the word read, `Parsing.cursor` pushes back by one at most. -/
theorem cursorNeverGoesBack : Obligations.CursorNeverGoesBack := by
  intro s t hbusy h ht
  obtain ⟨hlt, hparse⟩ := step_parsing hbusy h ht
  have htrace : t.trace = s.advance.2.trace := (congrArg State.trace hparse.frame :)
  refine ⟨⟨s.advance.1, htrace.trans (advance_trace s)⟩, ?_⟩
  rcases hparse.cursor with hcur | hcur
  · rw [hcur, advance_cur]
    right
    bv_omega
  · rw [hcur, advance_cur]
    left
    exact BitVec.add_sub_cancel _ _

/-- Settles O25: a step at the limit is the failure epilogue; below it the word read is one of `exec_ends_scan`. -/
theorem parseErrorDiscardsAll : Obligations.ParseErrorDiscardsAll := by
  refine ⟨fun s t hbusy h ht => ?_, fun s i t _ hpos h ht => ?_⟩
  · rw [step_scanning hbusy] at h
    refine ⟨fun hlim => ?_, fun hlt => ⟨s.advance.1, ?_⟩⟩
    · rw [if_pos hlim] at h
      cases h
      exact ⟨Parsing.start.scanFailed .noEnd, rfl, rfl, rfl, rfl⟩
    · rw [if_neg (BitVec.not_le.mpr hlt)] at h
      rcases exec_ends_scan (decodeStream_position _ _) h ht with ⟨rfl, hidentity, hend⟩ | ⟨u, c, hparse, rfl⟩
      · obtain ⟨es, htrace, hswitch, hnone⟩ := scanDone_trace s.advance.2
        rw [advance_trace, List.append_assoc] at htrace
        exact .inl ⟨(scanDone_succeeded hidentity).of_advance, word_of_decodeStream_end hend, es, htrace, hswitch,
          hnone⟩
      · exact .inr ⟨c, (hparse.scanFailed c).of_advance, (congrArg State.trace hparse.frame :)⟩
  · rcases exec_ends_scan hpos h ht with ⟨rfl, hidentity, hend⟩ | ⟨u, c, hparse, rfl⟩
    · exact .inl ⟨scanDone_succeeded hidentity, hend⟩
    · exact .inr ⟨c, hparse.scanFailed c, (congrArg State.trace hparse.frame :), (congrArg State.bus hparse.frame :)⟩

end Sys2Proof.Machine

/-! PROOFS. What the words of a component lead to (41_topology_scan.md R199 to R220). At a TryASD a word either
completes an ASD unit (`exec_unitEnd`) or is pushed back (`exec_rejectedAt`); each site is then one equation of what
R197 does with the unit found, or with none. -/

namespace Sys2Proof.Machine

/-! ## The CIB (R199 to R205) -/

section Cib

variable {s : State} {w : Word}

theorem taggedWord_cib {onIdentity : State → State} {onMpd : Nat → State → State} {onAsd : AsdSite → State → State}
    (hbusy : s.busy = true) (hpos : s.scan.pos = .cib) :
    taggedWord w onIdentity onMpd onAsd s = .next (s.takeCib w) := by
  simp only [taggedWord, hbusy, hpos, if_true]

theorem positionalWord_cib (hbusy : s.busy = true) (hpos : s.scan.pos = .cib) :
    positionalWord w s = .next (s.takeCib w) := by
  simp only [positionalWord, hbusy, hpos, if_true]

/-- Every kind of a tagged position is read as a tagged word. -/
theorem exec_tagged {i : Instr} (hpos : i.position = some .tagged) (hword : encode i = [w]) :
    ∃ onIdentity onMpd onAsd, ∀ s, exec i s = taggedWord w onIdentity onMpd onAsd s := by
  cases i with
  | cia | mpd | asdSlave | asdBridge | asdSwrap | asdMwrap | endOnes | endRom | invalid | reserved011 | reserved100
  | reserved101 | reserved111 =>
    cases hword
    exact ⟨_, _, _, fun _ => rfl⟩
  | _ => cases hpos

/-- The component is classified by its raw identity and its port counts, in the order of R201. -/
theorem classify_eq (s : State) : s.classify = { s with scan := { s.scan with
    br := if s.params.skipKinds.contains (s.scan.mfg, s.scan.cid) = false ∧ s.scan.nsp ≠ 0#5 ∧ s.scan.nmp = 0#5
      then false else s.scan.br
    pos :=
      if s.params.skipKinds.contains (s.scan.mfg, s.scan.cid) then .identity
      else if s.scan.nsp = 0#5 then (if s.scan.cid ∈ s.params.captureKinds then .asd .capture else .identity)
      else if s.scan.nmp = 0#5 then .asd .primary
      else .mpd s.scan.nmp.toNat } } := by
  unfold State.classify
  cases hskip : s.params.skipKinds.contains (s.scan.mfg, s.scan.cid)
  · by_cases hnsp : s.scan.nsp = 0#5
    · by_cases hcap : s.scan.cid ∈ s.params.captureKinds <;> simp [hnsp, hcap, State.goTo]
    · by_cases hnmp : s.scan.nmp = 0#5 <;> simp [hnsp, hnmp, State.goTo]
  · simp [State.goTo]

/-- A CIB gives the fields of the pair (R200). -/
theorem takeCib_cibWord (s : State) (rev : BitVec 8) (nsw nmw nsp nmp : BitVec 5) (v : BitVec 1) :
    s.takeCib (cibWord rev nsw nmw nsp nmp v) = State.classify { s with scan := { s.scan with
      cib := cibWord rev nsw nmw nsp nmp v
      mfg := field s.scan.cia 20 12, cid := field s.scan.cia 8 12, ccl := field s.scan.cia 4 4
      rev := rev, nsw := nsw, nmw := nmw, nsp := nsp, nmp := nmp } } := by
  obtain ⟨hrev, hnsw, hnmw, hnsp, hnmp, htag, -⟩ := (cibWord_eq_iff rev nsw nmw nsp nmp v).mp rfl
  rw [State.takeCib, if_pos htag.symm, ← hrev, ← hnsw, ← hnmw, ← hnsp, ← hnmp]

/-- A word with another TAG in the place of a CIB (R199). -/
theorem takeCib_badCib (htag : field w 1 3 ≠ 0#3) : s.takeCib w = s.parseFail .badCib := if_neg htag

end Cib

/-- Settles O15: a CIB decodes the pair (`takeCib_cibWord`) and classifies it (`classify_eq`). -/
theorem cibRule : Obligations.CibRule := by
  refine ⟨fun s rev nsw nmw nsp nmp v hbusy hpos => ?_, fun s i w hbusy hpos hposition hword htag => ?_⟩
  · intro mfg cid skipped
    have hexec : exec (.cib rev nsw nmw nsp nmp v) s = .next (s.takeCib (cibWord rev nsw nmw nsp nmp v)) :=
      positionalWord_cib hbusy hpos
    rw [hexec, takeCib_cibWord, classify_eq]
    rfl
  · obtain ⟨_, _, _, hexec⟩ := exec_tagged hposition hword
    rw [hexec, taggedWord_cib hbusy hpos, takeCib_badCib htag]

/-! ## A word at a TryASD (R156 to R158) -/

section TryAsd

variable {s : State} {i : Instr} {site : AsdSite} {addr size : Addr}

theorem positionalWord_sizeHi {w lo : Word} (hbusy : s.busy = true) (hpos : s.scan.pos = .sizeHi site addr lo) :
    positionalWord w s = .next (s.takeSizeHi site addr lo w) := by
  simp only [positionalWord, hbusy, hpos, if_true]

/-- The sizes of the fixed lookup are the window size shifted by the size code (R107). -/
theorem coreWindowSize_shiftLeft : ∀ sz : BitVec 2, sz ≠ 3#2 → Config.coreWindowSize <<< sz.toNat = fixedSize sz := by
  decide

theorem unitAddr_fixed {sz : BitVec 2} (hsz : sz ≠ 3#2) (s : State) (site : AsdSite) (addr : Addr) :
    s.unitAddr site addr sz = s.unitDone site addr (fixedSize sz) := by
  rw [State.unitAddr, if_neg hsz, coreWindowSize_shiftLeft sz hsz]

/-- An SZD with SG32 = 0 gives the whole size (R110). -/
theorem takeSzd_size (s : State) (site : AsdSite) (addr : Addr) (size : BitVec 20) (ignHi : BitVec 8)
    (ignLo : BitVec 3) : s.takeSzd site addr (szdWord size ignHi 0#1 ignLo) =
      s.unitDone site addr (0#32 ++ size ++ 0#12) := by
  have hsg : field (szdWord size ignHi 0#1 ignLo) 3 1 ≠ 1#1 := by rw [szdWord_sg32]; decide
  rw [State.takeSzd, if_neg hsg, szdWord_and_mask, hiLo_zero_append]

/-- The word that completes a unit: TryASD returns it. -/
theorem exec_unitEnd (hbusy : s.busy = true) (h : s.unitEnd i = some (site, addr, size)) :
    exec i s = .next (s.unitDone site addr size) := by
  unfold State.unitEnd at h
  cases hpos : s.scan.pos with
  | identity | cib | mpd => rw [hpos] at h; cases h
  | asd site' =>
    rw [hpos] at h
    cases hfields : asdFields i with
    | none => simp [hfields] at h
    | some fields =>
      obtain ⟨st, a, sp, sz, ag⟩ := fields
      simp only [hfields, Option.ite_none_right_eq_some, Option.some.injEq, Prod.mk.injEq] at h
      obtain ⟨⟨hwants, hag, hsz⟩, rfl, rfl, rfl⟩ := h
      rw [exec_asdFields hfields, taggedWord_asd hbusy hpos, asdHead_accepted hwants, if_neg (by simp [hag]),
        unitAddr_fixed hsz, hiLo_zero_append]
  | addrHi site' lo sz =>
    rw [hpos] at h
    cases i with
    | addrHi w =>
      simp only [Option.ite_none_right_eq_some, Option.some.injEq, Prod.mk.injEq] at h
      obtain ⟨hsz, rfl, rfl, rfl⟩ := h
      exact (positionalWord_addrHi hbusy hpos).trans (congrArg _ (unitAddr_fixed hsz s _ _))
    | _ => cases h
  | szd site' addr' =>
    rw [hpos] at h
    cases i with
    | szd sz ignHi sg ignLo =>
      simp only [Option.ite_none_right_eq_some, Option.some.injEq, Prod.mk.injEq] at h
      obtain ⟨rfl, rfl, rfl, rfl⟩ := h
      exact (positionalWord_szd hbusy hpos).trans (congrArg _ (takeSzd_size s _ _ sz ignHi ignLo))
    | _ => cases h
  | sizeHi site' addr' lo =>
    rw [hpos] at h
    cases i with
    | sizeHi w =>
      cases h
      exact positionalWord_sizeHi hbusy hpos
    | _ => cases h

/-- A valid word that is no ASD head is pushed back at every TryASD. -/
theorem exec_noAsd (hvalid : validTagged i = true) (hfields : asdFields i = none) :
    ∃ w onIdentity onMpd, ∀ s, exec i s = taggedWord w onIdentity onMpd State.reject s := by
  cases i with
  | cia | mpd | endOnes | endRom | reserved011 | reserved100 | reserved101 | reserved111 => exact ⟨_, _, _, fun _ => rfl⟩
  | asdSlave | asdBridge | asdSwrap | asdMwrap => cases hfields
  | _ => cases hvalid

/-- Any other valid word: TryASD pushes it back and returns NONE. -/
theorem exec_rejectedAt (hbusy : s.busy = true) (h : s.rejectedAt i = some site) :
    exec i s = .next (s.reject site) := by
  unfold State.rejectedAt at h
  cases hpos : s.scan.pos with
  | asd site' =>
    rw [hpos] at h
    simp only [Option.ite_none_right_eq_some] at h
    obtain ⟨hvalid, h⟩ := h
    cases hfields : asdFields i with
    | none =>
      rw [hfields] at h
      cases h
      obtain ⟨_, _, _, hexec⟩ := exec_noAsd hvalid hfields
      rw [hexec, taggedWord_asd hbusy hpos]
    | some fields =>
      obtain ⟨st, a, sp, sz, ag⟩ := fields
      simp only [hfields, Option.ite_none_left_eq_some, Option.some.injEq] at h
      obtain ⟨hother, rfl⟩ := h
      rw [exec_asdFields hfields, taggedWord_asd hbusy hpos, State.asdHead, if_neg hother]
  | _ => rw [hpos] at h; cases h

end TryAsd

/-! ## The checks of R208, R214, R215 and R217 -/

section Checks

variable {s : State} {ah sh : Word} {a : Asd} {c : ParseCause} {next : State → State}

theorem strictHigh_zero (hzero : ah = 0#32 ∧ sh = 0#32) : s.strictHigh ah sh next = next s := if_pos hzero

theorem strictHigh_strict (hhigh : ¬(ah = 0#32 ∧ sh = 0#32)) (hstrict : s.params.strictAsd = true) :
    s.strictHigh ah sh next = s.parseFail .high := by
  rw [State.strictHigh, if_neg hhigh, if_pos hstrict]

theorem strictHigh_lenient (hhigh : ¬(ah = 0#32 ∧ sh = 0#32)) (hlenient : s.params.strictAsd = false) :
    s.strictHigh ah sh next = next (s.logEntry .warnHigh) := by
  rw [State.strictHigh, if_neg hhigh, if_neg (by simp [hlenient])]

/-- The state after an ASD of a wrapper of this size, if it may be of it (R214). -/
def State.sizeWarned (size : Addr) (s : State) : State :=
  if size = 0x1000#64 then s else { s with log := s.log ++ [.warnWrapSize] }

theorem wrapSize_fails (hsize : a.size ≠ 0x1000#64) (hstrict : s.params.strictAsd = true) :
    s.wrapSize a c next = s.parseFail c := (if_neg hsize).trans (if_pos hstrict)

theorem wrapSize_passes (h : a.size = 0x1000#64 ∨ s.params.strictAsd = false) :
    s.wrapSize a c next = next (s.sizeWarned a.size) := by
  unfold State.wrapSize State.sizeWarned
  by_cases hsize : a.size = 0x1000#64
  · rw [if_pos hsize, if_pos (show a.size = Config.coreWindowSize from hsize)]
  · have hlenient := h.resolve_left hsize
    rw [if_neg hsize, if_neg (show ¬a.size = Config.coreWindowSize from hsize), if_neg (by simp [hlenient])]
    rfl

/-- The address is the component's first wrapper's and has a high half that no warning lets pass (R215). -/
def State.wrapHighFails (addr : Addr) (s : State) : Prop :=
  s.scan.wrap = none ∧ s.scan.br = false ∧ addr.extractLsb' 32 32 ≠ 0#32 ∧ s.params.strictAsd = true

/-- The state with a wrapper's address recorded if it is the first, and a warning for a high half (R215). -/
def State.wrapRecorded (addr : Addr) (s : State) : State :=
  if s.scan.wrap = none then
    { s with scan := { s.scan with wrap := some addr }
             log := if s.scan.br = false ∧ addr.extractLsb' 32 32 ≠ 0#32 then s.log ++ [.warnHigh] else s.log }
  else s

theorem recordWrap_later {wb : Addr} (hwrap : s.scan.wrap = some wb) : s.recordWrap a next = next s := by
  simp only [State.recordWrap, hwrap]

theorem recordWrap_bridge (hwrap : s.scan.wrap = none) (hbr : s.scan.br = true) :
    s.recordWrap a next = next { s with scan := { s.scan with wrap := some a.addr } } := by
  simp only [State.recordWrap, hwrap, hbr, if_true]

theorem recordWrap_first (hwrap : s.scan.wrap = none) (hbr : s.scan.br = false) : s.recordWrap a next =
    State.strictHigh (highWord a.addr) 0 next { s with scan := { s.scan with wrap := some a.addr } } := by
  simp only [State.recordWrap, hwrap, hbr, Bool.false_eq_true, if_false]

theorem recordWrap_fails (h : s.wrapHighFails a.addr) :
    s.recordWrap a next = State.parseFail .high { s with scan := { s.scan with wrap := some a.addr } } := by
  obtain ⟨hwrap, hbr, hhigh, hstrict⟩ := h
  rw [recordWrap_first hwrap hbr]
  exact strictHigh_strict (fun hzero => hhigh hzero.1) hstrict

theorem recordWrap_passes (h : ¬s.wrapHighFails a.addr) : s.recordWrap a next = next (s.wrapRecorded a.addr) := by
  unfold State.wrapRecorded
  cases hwrap : s.scan.wrap with
  | some wb => exact recordWrap_later hwrap
  | none =>
    cases hbr : s.scan.br with
    | true => simpa using recordWrap_bridge hwrap hbr
    | false =>
      rw [recordWrap_first hwrap hbr]
      by_cases hhigh : highWord a.addr = 0#32
      · rw [if_pos rfl, if_neg (fun hnot => hnot.2 hhigh)]
        exact strictHigh_zero ⟨hhigh, rfl⟩
      · have hlenient : s.params.strictAsd = false := by
          simpa using fun hstrict => h ⟨hwrap, hbr, hhigh, hstrict⟩
        rw [if_pos rfl, if_pos ⟨rfl, hhigh⟩]
        exact strictHigh_lenient (fun hzero => hhigh hzero.1) hlenient

theorem captureBridge_other (h : s.params.bridgeKinds.contains (s.scan.mfg, s.scan.cid) = false) :
    s.captureBridge a next = next s := by
  rw [State.captureBridge, if_neg (Bool.not_eq_true _ ▸ h)]

theorem captureBridge_full (h : s.params.bridgeKinds.contains (s.scan.mfg, s.scan.cid) = true)
    (hfull : s.bws.length = s.params.maxBridges) : s.captureBridge a next = s.parseFail .bwsFull := by
  rw [State.captureBridge, if_pos h, if_pos hfull]

theorem captureBridge_room (h : s.params.bridgeKinds.contains (s.scan.mfg, s.scan.cid) = true)
    (hroom : s.bws.length ≠ s.params.maxBridges) :
    s.captureBridge a next = next { s with bws := s.bws ++ [a.addr] } := by
  rw [State.captureBridge, if_pos h, if_neg hroom]

end Checks

/-! ## The sites, one by one -/

/-- Settles O18: the unit found is checked by `State.strictHigh`, a word pushed back leads to the bridge retry. -/
theorem primarySite : Obligations.PrimarySite := by
  intro s i hbusy
  refine ⟨fun addr size hunit => ?_, fun hreject => exec_rejectedAt hbusy hreject⟩
  intro t
  have hexec : exec i s = .next (t.strictHigh (highWord addr) (highWord size) (State.goTo (.asd (.extra 0 none)))) :=
    exec_unitEnd hbusy hunit
  rw [hexec]
  exact ⟨fun hzero => congrArg _ (strictHigh_zero hzero), fun hhigh =>
    ⟨fun hstrict => congrArg _ (strictHigh_strict hhigh hstrict), fun hlenient =>
      congrArg _ (strictHigh_lenient hhigh hlenient)⟩⟩

/-- Settles O19: the four ends of the two bridge sites are what `State.asdFound` and `State.asdMissing` give there. -/
theorem bridgeSite : Obligations.BridgeSite := by
  intro s i hbusy
  exact ⟨fun addr size hunit => exec_unitEnd hbusy hunit, fun hreject => exec_rejectedAt hbusy hreject,
    fun addr size hunit => exec_unitEnd hbusy hunit, fun hreject => exec_rejectedAt hbusy hreject⟩

/-- The secondary address space is the one further ASD of window size (R210). -/
def secondaryOf (extras : Nat) (first : Option Asd) : Option Asd :=
  first.filter (fun a => extras == 1 && a.size == 0x1000#64)

section EndExtras

variable {s : State} {n : Nat} {first : Option Asd} {a : Asd}

theorem endExtras_eq (s : State) (n : Nat) (first : Option Asd) : s.endExtras n first =
    (match secondaryOf n first with
    | some a => if s.scan.br then State.slavePorts 1 { s with scan := { s.scan with sec := some a } }
      else State.strictHigh (highWord a.addr) 0 (State.slavePorts 1) { s with scan := { s.scan with sec := some a } }
    | none => State.slavePorts 1 { s with scan := { s.scan with sec := none } }) := by
  unfold State.endExtras secondaryOf
  cases first with
  | none => rfl
  | some a =>
    by_cases hsec : n = 1 ∧ a.size = Config.coreWindowSize
    · have hkept : (some a).filter (fun a => n == 1 && a.size == 0x1000#64) = some a := by
        simpa [Option.filter, Config.coreWindowSize] using hsec
      rw [hkept]
      simp only [if_pos hsec]
    · have hdropped : (some a).filter (fun a => n == 1 && a.size == 0x1000#64) = none := by
        simpa [Option.filter, Config.coreWindowSize] using hsec
      rw [hdropped]
      simp only [if_neg hsec]

/-- No secondary address is checked: there is none, or the component is a bridge (R210). -/
theorem endExtras_unchecked (h : secondaryOf n first = none ∨ s.scan.br = true) : s.endExtras n first =
    State.slavePorts 1 { s with scan := { s.scan with sec := secondaryOf n first } } := by
  rw [endExtras_eq]
  cases hsec : secondaryOf n first with
  | none => rfl
  | some a => exact if_pos (h.resolve_left (by simp [hsec]))

theorem endExtras_checked (hsec : secondaryOf n first = some a) (hbr : s.scan.br = false) : s.endExtras n first =
    State.strictHigh (highWord a.addr) 0 (State.slavePorts 1)
      { s with scan := { s.scan with sec := secondaryOf n first } } := by
  rw [endExtras_eq, hsec]
  exact if_neg (by simp [hbr])

end EndExtras

/-- Settles O20: the ASDs are counted; at the word pushed back the secondary is `secondaryOf` them. -/
theorem secondarySite : Obligations.SecondarySite := by
  intro s i n first hbusy
  refine ⟨fun addr size hunit => exec_unitEnd hbusy hunit, fun hreject => ?_⟩
  intro sec t
  have hexec : exec i s = .next (s.pushBack.endExtras n first) := exec_rejectedAt hbusy hreject
  rw [hexec]
  refine ⟨fun h => congrArg _ (endExtras_unchecked (s := s.pushBack) h), fun a hsec hbr => ?_⟩
  rw [endExtras_checked (s := s.pushBack) hsec hbr]
  exact ⟨fun hzero => congrArg _ (strictHigh_zero ⟨hzero, rfl⟩),
    fun hhigh hstrict => congrArg _ (strictHigh_strict (fun hzero => hhigh hzero.1) hstrict),
    fun hhigh hlenient => congrArg _ (strictHigh_lenient (fun hzero => hhigh hzero.1) hlenient)⟩

/-- Settles O21: what `State.asdFound` and `State.asdMissing` give at the two sites, a port by its count of ASDs. -/
theorem captureAndPortSites : Obligations.CaptureAndPortSites := by
  refine ⟨fun nsp k j n first => ⟨rfl, rfl, rfl, rfl, rfl, rfl⟩, fun s i hbusy => ?_⟩
  refine ⟨fun addr size hunit => exec_unitEnd hbusy hunit, fun hreject => exec_rejectedAt hbusy hreject,
    fun k j addr size hunit => exec_unitEnd hbusy hunit, fun k j hreject => ?_⟩
  intro t
  rw [exec_rejectedAt hbusy hreject]
  exact ⟨fun hnone => congrArg _ (if_pos hnone), fun hsome => congrArg _ (if_neg hsome)⟩

section Wrappers

variable {s : State} {a : Asd} {c : ParseCause} {next : State → State}

/-- A wrapper ASD that may be of its size: its address is recorded, or its high half fails the scan. -/
theorem wrapSize_recordWrap (hsize : a.size = 0x1000#64 ∨ s.params.strictAsd = false) :
    (s.wrapHighFails a.addr → s.wrapSize a c (State.recordWrap a next) =
      State.parseFail .high { s with scan := { s.scan with wrap := some a.addr } }) ∧
    (¬s.wrapHighFails a.addr → s.wrapSize a c (State.recordWrap a next) =
      next ((s.sizeWarned a.size).wrapRecorded a.addr)) := by
  rw [wrapSize_passes hsize]
  refine ⟨fun hfails => ?_, fun hpasses => ?_⟩
  · have hstrict : s.params.strictAsd = true := hfails.2.2.2
    have hwindow : a.size = 0x1000#64 := hsize.resolve_right (by simp [hstrict])
    have hsilent : s.sizeWarned a.size = s := if_pos hwindow
    rw [hsilent, recordWrap_fails hfails]
  · refine recordWrap_passes fun hfails => hpasses ?_
    unfold State.sizeWarned at hfails
    split at hfails <;> exact hfails

/-- Of the state, recording a wrapper changes the log and the WRAP register alone. -/
theorem wrapRecorded_sizeWarned_frame (size addr : Addr) (s : State) :
    ∃ lg wrap, (s.sizeWarned size).wrapRecorded addr = { s with log := lg, scan := { s.scan with wrap := wrap } } := by
  unfold State.wrapRecorded State.sizeWarned
  split <;> split <;> exact ⟨_, _, rfl⟩

end Wrappers

/-- Settles O22: a missing wrapper is a word pushed back; one found is sized and recorded (`wrapSize_recordWrap`),
and a slave wrapper goes through `State.captureBridge`. -/
theorem wrapperSites : Obligations.WrapperSites := by
  refine ⟨fun nsp k => ⟨rfl, fun hone => by simp [AsdSite.wants, hone], fun hmore => by
    simp [AsdSite.wants, hmore, Nat.add_comm]⟩, fun s i hbusy => ?_⟩
  intro warned recorded highFails
  refine ⟨fun k hreject => exec_rejectedAt hbusy hreject, fun k hreject => exec_rejectedAt hbusy hreject,
    fun k addr size hunit => ?_, fun k addr size hunit => ?_⟩
  · rw [exec_unitEnd hbusy hunit]
    refine ⟨fun hwrong => congrArg _ (wrapSize_fails hwrong.1 hwrong.2), fun hsize => ?_⟩
    obtain ⟨hfails, hpasses⟩ := wrapSize_recordWrap (s := s) (c := .mwSize k) (next := State.masterWraps (k + 1))
      (a := { port := k, type := .mwrap, addr := addr, size := size }) hsize
    exact ⟨fun hhigh => congrArg _ (hfails hhigh), fun hhigh => congrArg _ (hpasses hhigh)⟩
  · rw [exec_unitEnd hbusy hunit]
    refine ⟨fun hwrong => congrArg _ (wrapSize_fails hwrong.1 hwrong.2), fun hsize => ?_⟩
    obtain ⟨hfails, hpasses⟩ := wrapSize_recordWrap (s := s) (c := .swSize k)
      (a := { port := ((AsdSite.slaveWrap k).wants s.scan.nsp).1, type := .swrap, addr := addr, size := size })
      (next := State.captureBridge _ (State.slaveWraps (k + 1))) hsize
    refine ⟨fun hhigh => congrArg _ (hfails hhigh), fun hhigh => ?_⟩
    intro t
    have hunitDone : s.unitDone (.slaveWrap k) addr size = t.captureBridge _ (State.slaveWraps (k + 1)) :=
      hpasses hhigh
    rw [hunitDone]
    obtain ⟨lg, wrap, ht⟩ : ∃ lg wrap, t = _ := wrapRecorded_sizeWarned_frame size addr s
    refine ⟨fun hother => congrArg _ (captureBridge_other (s := t) (by rw [ht]; exact hother)),
      fun hkind => ⟨fun hfull => ?_, fun hroom => ?_⟩⟩
    · exact congrArg _ (captureBridge_full (s := t) (by rw [ht]; exact hkind) (by rw [ht]; exact hfull))
    · have hbws : s.bws = t.bws := by rw [ht]
      rw [hbws]
      exact congrArg _ (captureBridge_room (s := t) (by rw [ht]; exact hkind) (by rw [ht]; exact hroom))

/-- The commit of a component: a bridge is discarded (R219), any other is a row while the table has room (R220). -/
theorem commit_eq (s : State) : s.commit =
    if s.scan.br then { s with scan := { s.scan with pos := .identity } }
    else if s.scan.rows.length = s.params.maxCores then s.parseFail .tableFull
    else { s with scan := { s.scan with pos := .identity, rows := s.scan.rows ++ [s.newRow] } } := rfl

/-- Settles O23: the ports and the wrappers by their equations, the end of the last region by `commit_eq`. -/
theorem regionOrder : Obligations.RegionOrder := by
  intro s k
  refine ⟨rfl, rfl, ?_⟩
  rw [State.slaveWraps, commit_eq]
  rfl

end Sys2Proof.Machine

/-! PROOFS. SCAN on a legacy bus (41_topology_scan.md R230 to R236): the identity read, the walk, and how it ends.
What the walk leaves alone is said of its events and its rows (`WalkFrame`); its two ends are the epilogues of R221
and R222. -/

namespace Sys2Proof.Machine

/-! ## What the walk leaves alone -/

/-- A row of a legacy core: one slot, no secondary space and no wrapper (R233, R234). -/
def LegacyRow (d : CoreDescriptor) : Prop :=
  d.primarySize = Config.legacySlotSize ∧ d.secondaryAddr = none ∧ d.secondarySize = none ∧ d.wrapperAddr = none

/-- A part of the walk, from one REG and rows to the next: it writes nothing, leaves REG alone on Flat, and makes
legacy rows only. -/
structure WalkFrame (flat : Bool) (reg : Addr) (rows : List CoreDescriptor) (es : List Event) (reg' : Addr)
    (rows' : List CoreDescriptor) : Prop where
  writeFree : WriteFree es
  reg : flat = true → reg' = reg
  legacy : (∀ d ∈ rows, LegacyRow d) → ∀ d ∈ rows', LegacyRow d

section Walk

variable {flat : Bool} {reg reg' reg'' : Addr} {rows rows' rows'' : List CoreDescriptor} {es es' : List Event}

theorem WalkFrame.refl (flat : Bool) (reg : Addr) (rows : List CoreDescriptor) : WalkFrame flat reg rows [] reg rows :=
  ⟨writeFree_nil, fun _ => rfl, fun h => h⟩

theorem WalkFrame.trans (h : WalkFrame flat reg rows es reg' rows') (k : WalkFrame flat reg' rows' es' reg'' rows'') :
    WalkFrame flat reg rows (es ++ es') reg'' rows'' :=
  ⟨(writeFree_append _ _).mpr ⟨h.writeFree, k.writeFree⟩, fun hflat => (k.reg hflat).trans (h.reg hflat),
    fun hrows => k.legacy (h.legacy hrows)⟩

theorem WalkFrame.row {d : CoreDescriptor} (hd : LegacyRow d) : WalkFrame flat reg rows [] reg (rows ++ [d]) where
  writeFree := writeFree_nil
  reg _ := rfl
  legacy h d' hd' := by
    rcases List.mem_append.mp hd' with hd' | hd'
    · exact h d' hd'
    · rw [List.mem_singleton.mp hd']; exact hd

/-- A slot's identification reads, maps and sets REG, the last on a windowed transport alone. -/
theorem IsIdentify.frame {slot : Addr} {p : SlotProc} {r : Except ParseCause LegacyIdent}
    (h : IsIdentify flat slot p reg es r reg') (rows : List CoreDescriptor) : WalkFrame flat reg rows es reg' rows := by
  induction p generalizing reg es with
  | done id => obtain ⟨rfl, -, rfl⟩ := h; exact .refl ..
  | raise c => obtain ⟨rfl, -, rfl⟩ := h; exact .refl ..
  | read again page word next ih =>
    obtain ⟨v, rest, rfl, hrest⟩ := h
    rw [List.append_cons]
    refine WalkFrame.trans ⟨?_, fun hflat => if_pos hflat, fun h => h⟩ (ih v hrest)
    split <;> simp
  | map base size next ih =>
    obtain ⟨rest, rfl, hrest⟩ := h
    exact WalkFrame.trans (es := [.map base size]) ⟨by simp, fun _ => rfl, fun h => h⟩ (ih hrest)

/-- The slots of one bus, the sub-buses being framed too. -/
theorem IsSlots.frame {p : Params} {f : Family}
    {sub : LegacyIdent → Addr → List CoreDescriptor → List Event → WalkEnd → Prop} {b : Addr}
    (hsub : ∀ id reg rows es e, sub id reg rows es e → WalkFrame flat reg rows es e.reg e.rows) {left k : Nat}
    {e : WalkEnd} (h : IsSlots p f flat sub b left k reg rows es e) : WalkFrame flat reg rows es e.reg e.rows := by
  induction left generalizing k reg rows es with
  | zero =>
    obtain ⟨rfl, rfl⟩ := h
    exact .refl ..
  | succ left ih =>
    obtain ⟨es1, r, reg1, es2, hid, rfl, hrest⟩ := h
    refine (hid.frame rows).trans ?_
    cases r with
    | error c =>
      obtain ⟨rfl, rfl⟩ := hrest
      exact .refl ..
    | ok id =>
      dsimp only at hrest
      split at hrest
      case isTrue =>
        obtain ⟨es3, es4, e3, h3, rfl, hend⟩ := hrest
        refine (hsub _ _ _ _ _ h3).trans ?_
        split at hend
        · obtain ⟨rfl, rfl⟩ := hend
          exact .refl ..
        · exact ih hend
      case isFalse =>
        split at hrest
        · obtain ⟨rfl, rfl⟩ := hrest
          exact .refl ..
        · exact WalkFrame.trans (es := []) (.row ⟨rfl, rfl, rfl, rfl⟩) (ih hrest)

theorem IsMainWalk.frame {p : Params} {f : Family} {count : Nat} {e : WalkEnd}
    (h : IsMainWalk p f flat count reg es e) : WalkFrame flat reg [] es e.reg e.rows := by
  refine IsSlots.frame (fun id _ _ _ _ hsub => IsSlots.frame (fun _ _ _ _ _ hdeep => ?_) hsub) h
  obtain ⟨rfl, rfl⟩ := hdeep
  exact .refl ..

/-- No slot, no row (R235). -/
theorem IsMainWalk.of_zero {p : Params} {f : Family} {e : WalkEnd} (h : IsMainWalk p f flat 0 reg es e) :
    e.result = .ok () ∧ e.rows = [] := by
  obtain ⟨-, rfl⟩ := h
  exact ⟨rfl, rfl⟩

end Walk

/-! ## The identity read and the walk (R231, R233) -/

/-- On a windowed transport REG is set to `LEGACY_BASE` before the identity read (log 18). -/
def State.legacyEvents (s : State) : List Event := if s.flat then [] else [.winSet .reg Config.legacyBase]

/-- Where REG stands then. -/
def State.legacyReg (s : State) : Addr := if s.flat then s.winReg else Config.legacyBase

/-- Where the identity register is read. -/
def legacyIdAddr : Addr := Config.legacyBase + Config.legacyIdOffset

/-- The identity register, as the bus answers it after those events. -/
def State.legacyId (s : State) : Word := { s with trace := s.trace ++ s.legacyEvents }.busAnswer legacyIdAddr

theorem selectPage_legacyBase (s : State) :
    Probe s (s.selectPage Config.legacyBase true) s.legacyEvents s.legacyReg ∧
      (s.selectPage Config.legacyBase true).bus = s.bus ∧
      (s.selectPage Config.legacyBase true).pagePa Config.legacyBase Config.legacyIdWord = legacyIdAddr := by
  have hprobe := selectPage_probe Config.legacyBase true s
  simp only [Bool.true_eq_false, and_false, or_false] at hprobe
  refine ⟨hprobe, ?_, ?_⟩
  · unfold State.selectPage
    split <;> rfl
  · unfold State.pagePa
    rw [hprobe.flat, hprobe.reg]
    cases s.flat <;> rfl

/-- The legacy scan: the identity read, the walk of the slots it counts, and one of the two epilogues. -/
theorem legacyScan_walk (s : State) (hrows : s.scan.rows = []) : ∃ u es e,
    Probe (s.withRows e.rows) u (s.legacyEvents ++ .memRead .plain legacyIdAddr s.legacyId :: es) e.reg ∧
    IsMainWalk s.params s.cfg.family s.flat (legacyCount s.cfg.family s.legacyId).toNat s.legacyReg es e ∧
    (e.result = .ok () → s.legacyScan = u.scanDone) ∧ ∀ c, e.result = .error c → s.legacyScan = u.parseFail c := by
  obtain ⟨hselect, hbus, hpa⟩ := selectPage_legacyBase s
  have hid : (s.selectPage Config.legacyBase true).busAnswer legacyIdAddr = s.legacyId := by
    unfold State.legacyId State.busAnswer
    rw [hselect.trace, hbus]
  have hread := hselect.trans (probe_memRead .plain legacyIdAddr _)
  rw [hid] at hread
  obtain ⟨es, e, ⟨hprobe, hresult⟩, hmain⟩ := mainWalk_spec (legacyCount s.cfg.family s.legacyId).toNat
    ((s.selectPage Config.legacyBase true).memRead .plain legacyIdAddr).2 (by rw [hread.scan, hrows])
  rw [hread.params, hread.cfg, hread.flat, hread.reg, hselect.reg] at hmain
  have hall := (hread.withRows e.rows).trans hprobe
  rw [← List.append_cons] at hall
  refine ⟨_, es, e, hall, hmain, fun hok => ?_, fun c herror => ?_⟩
  · rw [hok] at hresult
    unfold State.legacyScan
    simp only [hpa, memRead_fst, hid, hresult]
  · rw [herror] at hresult
    unfold State.legacyScan
    simp only [hpa, memRead_fst, hid, hresult]

/-! ## The success epilogue on rows without wrappers (R222) -/

section Epilogue

variable {u : State} {d : CoreDescriptor} {rest : List CoreDescriptor}

theorem scanDone_of_nil (hrows : u.scan.rows = []) : u.scanDone = u.scanStored :=
  switchTo_none (scanStored_row_eq_none.mpr hrows)

theorem scanStored_row_of_cons (hrows : u.scan.rows = d :: rest) : u.scanStored.row 0#32 = some d := by
  simp [State.row, State.scanStored, hrows]

theorem scanDone_flat (hrows : u.scan.rows = d :: rest) (hwrap : d.wrapperAddr = none) (hflat : u.flat = true)
    (hmapReg : u.mapReg = []) (hmapWrap : u.mapWrap = []) : u.scanDone = { u.scanStored with
      trace := u.trace ++ [.map d.primaryAddr 0x1000#64]
      mapReg := [some d.primaryAddr]
      mapWrap := []
      focus := { idx := some 0#32, reg := some (.mapped d.primaryAddr), wrap := none } } := by
  rw [scanDone_eq_switchTo, switchTo_flat (scanStored_row_of_cons hrows) hflat,
    focusFlat_unmapped (s := u.scanStored) hmapReg hmapWrap, hwrap]
  simp [State.scanStored]

theorem scanDone_windowed (hrows : u.scan.rows = d :: rest) (hwrap : d.wrapperAddr = none) (hflat : u.flat = false) :
    u.scanDone = { u.scanStored with
      trace := u.trace ++ [.winSet .reg d.primaryAddr]
      winReg := d.primaryAddr
      focus := { idx := some 0#32, reg := some (.window .reg), wrap := none } } := by
  rw [scanDone_eq_switchTo, switchTo_windowed (scanStored_row_of_cons hrows) hflat]
  simp [State.scanStored, State.switchEvents, State.row, hrows, hwrap]

end Epilogue

/-! ## The command -/

/-- What SCAN's walk leaves before its epilogue: the prologue's registers (`ScanBegun`), the rows, REG, the events. -/
structure LegacyWalked (s u : State) (es : List Event) (e : WalkEnd) : Prop extends ScanBegun s u where
  trace : u.trace = s.trace ++ s.legacyEvents ++ .memRead .plain legacyIdAddr s.legacyId :: es
  rows : u.scan.rows = e.rows
  cursor : u.scan.cur = 0#32
  reg : u.winReg = e.reg
  regFlat : s.flat = true → u.winReg = s.winReg
  legacy : ∀ d ∈ u.scan.rows, LegacyRow d

/-- The walk is reads, Maps and WinSets after the prologue. -/
theorem Probe.legacyWalked {s u : State} {es : List Event} {e : WalkEnd}
    (h : Probe (s.begin.scanPrologue.withRows e.rows) u
      (s.legacyEvents ++ .memRead .plain legacyIdAddr s.legacyId :: es) e.reg)
    (hframe : WalkFrame s.flat s.legacyReg [] es e.reg e.rows) : LegacyWalked s u es e := by
  have hbefore : WriteFree s.legacyEvents := by unfold State.legacyEvents; split <;> simp
  have hfree : WriteFree (s.legacyEvents ++ .memRead .plain legacyIdAddr s.legacyId :: es) :=
    (writeFree_append _ _).mpr ⟨hbefore, (writeFree_cons _ _).mpr ⟨rfl, hframe.writeFree⟩⟩
  have hmem : u.bus.mem = s.bus.mem := h.mem.trans (replay_of_writeFree hfree _)
  have hrows : u.scan.rows = e.rows := by rw [h.scan]; rfl
  exact { (Probe.withRows h []).scanBegun (s := s) hmem with
    trace := by rw [List.append_assoc]; exact h.trace
    rows := hrows
    cursor := by rw [h.scan]; rfl
    reg := h.reg
    regFlat := fun hflat => h.reg.trans ((hframe.reg hflat).trans (if_pos hflat))
    legacy := fun d hd => hframe.legacy nofun d (hrows ▸ hd) }

/-- SCAN of a ready legacy block: the walk, and then one of the two epilogues. -/
theorem exec_scan_legacy {s : State} (hready : s.ready) (hgen : s.cfg.busGen = .legacy) : ∃ u es e,
    LegacyWalked s u es e ∧
    IsMainWalk s.params s.cfg.family s.flat (legacyCount s.cfg.family s.legacyId).toNat s.legacyReg es e ∧
    (e.result = .ok () → exec .scan s = .next u.scanDone) ∧
    ∀ c, e.result = .error c → exec .scan s = .next (u.parseFail c) := by
  obtain ⟨hbusy, hatt⟩ := hready
  have hexec : exec .scan s = .next s.begin.scanPrologue.legacyScan := by
    unfold exec execScan State.scanStart
    simp [hbusy, hatt, hgen]
  obtain ⟨u, es, e, hprobe, hwalk, hok, herror⟩ := legacyScan_walk s.begin.scanPrologue rfl
  refine ⟨u, es, e, Probe.legacyWalked hprobe hwalk.frame, hwalk, fun hresult => ?_, fun c hresult => ?_⟩
  · rw [hexec, hok hresult]
  · rw [hexec, herror c hresult]

/-- Settles O13: the walk of `exec_scan_legacy`, and its epilogue by how it ended and what rows it made. -/
theorem legacyScanRule : Obligations.LegacyScanRule := by
  intro s hready hgen before pa w count reg
  obtain ⟨u, es, e, hu, hwalk, hok, herror⟩ := exec_scan_legacy hready hgen
  have hevents : s.legacyEvents = before := by simp only [State.legacyEvents, flat_iff]; rfl
  have hreg : s.legacyReg = reg := by simp only [State.legacyReg, flat_iff]; rfl
  have hid : s.legacyId = w := by unfold State.legacyId; rw [hevents]; rfl
  have htrace : u.trace = s.trace ++ before ++ .memRead .plain pa w :: es := by
    rw [hu.trace, hevents, hid]; rfl
  have hslots : legacyCount s.cfg.family w = count := rfl
  rw [hid, hreg, hslots] at hwalk
  have hcount : count = 0#32 → e.result = .ok () ∧ e.rows = [] := fun hzero => by
    rw [hzero] at hwalk
    exact hwalk.of_zero
  have hatt := hu.attached.trans hready.2
  cases hresult : e.result with
  | error c =>
    refine ⟨_, es, e, herror c hresult, rfl, hwalk, rfl, rfl, hatt, hu.cfg, hu.params, hu.commands, hu.log, hu.irqSaved,
      hu.mem, hu.device, nofun, ?_, hu.mapWrap, hu.winWrap, fun hzero => ?_⟩
    · rw [hresult]
      exact ⟨congrArg _ hu.cursor, rfl, rfl, htrace, rfl, hu.mapReg, hu.reg⟩
    · cases hresult.symm.trans (hcount hzero).1
  | ok _ =>
    have hexec := hok hresult
    cases hrows : u.scan.rows with
    | nil =>
      rw [scanDone_of_nil hrows] at hexec
      refine ⟨_, es, e, hexec, rfl, hwalk, hu.bws, hu.oob, hatt, hu.cfg, hu.params, hu.commands, hu.log, hu.irqSaved,
        hu.mem, hu.device, hu.legacy, ?_, hu.mapWrap, hu.winWrap, fun _ => ⟨rfl, hrows⟩⟩
      rw [hresult, ← hu.rows, hrows]
      exact ⟨rfl, rfl, hrows, htrace, hu.focus, hu.mapReg, hu.reg⟩
    | cons d rest =>
      have hzero : count ≠ 0#32 := fun hzero => by cases (hrows.symm.trans hu.rows).trans (hcount hzero).2
      obtain ⟨-, -, -, hwrap⟩ := hu.legacy d (by simp [hrows])
      have hflat_iff : u.flat = true ↔ s.cfg.transport = .flat := by rw [flat_iff, hu.cfg]
      cases hflat : u.flat
      · have hwindowed : s.cfg.transport ≠ .flat := fun h => by simp [hflat_iff.mpr h] at hflat
        rw [scanDone_windowed hrows hwrap hflat] at hexec
        refine ⟨_, es, e, hexec, rfl, hwalk, hu.bws, hu.oob, hatt, hu.cfg, hu.params, hu.commands, hu.log, hu.irqSaved,
          hu.mem, hu.device, hu.legacy, ?_, hu.mapWrap, hu.winWrap, fun h => absurd h hzero⟩
        rw [hresult, ← hu.rows, hrows]
        exact ⟨rfl, rfl, hrows, rfl, rfl, fun h => absurd h hwindowed,
          fun _ => ⟨congrArg (· ++ _) htrace, rfl, hu.mapReg, rfl⟩⟩
      · have htransport := hflat_iff.mp hflat
        rw [scanDone_flat hrows hwrap hflat hu.mapReg hu.mapWrap] at hexec
        refine ⟨_, es, e, hexec, rfl, hwalk, hu.bws, hu.oob, hatt, hu.cfg, hu.params, hu.commands, hu.log, hu.irqSaved,
          hu.mem, hu.device, hu.legacy, ?_, rfl, hu.winWrap, fun h => absurd h hzero⟩
        rw [hresult, ← hu.rows, hrows]
        exact ⟨rfl, rfl, hrows, rfl, rfl, fun _ => ⟨congrArg (· ++ _) htrace, rfl, rfl,
          hu.regFlat ((flat_iff s).mpr htransport)⟩, fun h => absurd htransport h⟩

end Sys2Proof.Machine

/-! PROOFS. SCAN of an encoded table gives the table (41_topology_scan.md R224). `Scanning b W ws s`: in `s` the reader
stands before the words `ws`, the rest of the stream `W` of `b`. A word is read off (`Scanning.read`) or pushed back;
from this an ASD unit is read (`Scanning.unit`), then a component (`Scanning.row`), then the table. -/

namespace Sys2Proof.Machine

/-! ## Runs of the block -/

/-- Some number of steps leads from `s` to `t`. -/
def Runs (s t : State) : Prop := ∃ n, Host.Core.run Sys2Proof.core n s = .next t

section Runs

variable {s t u : State}

theorem Runs.refl (s : State) : Runs s s := ⟨0, rfl⟩

theorem run_succ (n : Nat) (h : step s = .next u) :
    Host.Core.run Sys2Proof.core (n + 1) s = Host.Core.run Sys2Proof.core n u := by
  have hstep : Sys2Proof.core.step s = .next u := h
  simp only [Host.Core.run, hstep]

theorem Runs.of_step (h : step s = .next t) : Runs s t := ⟨1, run_succ 0 h⟩

theorem Runs.trans (h : Runs s u) (k : Runs u t) : Runs s t := by
  obtain ⟨n, hn⟩ := h
  obtain ⟨m, hm⟩ := k
  induction n generalizing s with
  | zero => cases hn; exact ⟨m, hm⟩
  | succ n ih =>
    cases hstep : step s with
    | next v =>
      rw [run_succ n hstep] at hn
      obtain ⟨l, hl⟩ := ih hn
      exact ⟨l + 1, (run_succ l hstep).trans hl⟩
    | fault r | refused r =>
      have hstop : Sys2Proof.core.step s = _ := hstep
      simp only [Host.Core.run, hstop] at hn
      cases hn

end Runs

/-! ## The stream of a reference device (R150, log 3) -/

theorem busAnswer_onReference {s : State} {pages : List (BitVec 52)} (h : s.onReference pages) (pa : Addr) :
    s.busAnswer pa = referenceAnswer pages s.bus.mem pa := by
  obtain ⟨hdevice, hscript⟩ := h
  simp [State.busAnswer, hdevice, hscript]

/-- With no script entry to use up, a read leaves the bus as it is. -/
theorem memRead_bus_of_nil {s : State} (h : s.bus.script = []) (path : AccessPath) (pa : Addr) :
    (s.memRead path pa).2.bus = s.bus := by
  rw [memRead_bus, h, List.eraseP_nil, ← h]

/-- Where the stream begins (R150). -/
def State.streamBase (s : State) : Addr := if s.flat then zext64 s.scan.eromBase else s.winReg

/-- The stream that `b` is to read is `W`, on a reference device. -/
structure State.StreamIs (b : State) (W : List Word) : Prop where
  device : ∃ pages, b.onReference pages
  fits : W.length ≤ Config.eromLimitWords.toNat
  words : ∀ (k : Nat) (w : Word), W[k]? = some w → b.busAnswer (b.streamBase + 4#64 * BitVec.ofNat 64 k) = w

/-- The cursor before the words `ws` at the end of `W`. -/
def cursorAt (W ws : List Word) : Word := BitVec.ofNat 32 (W.length - ws.length)

/-- A scan is in progress in `s`, the words `ws` of the stream `W` of `b` being still to be read. -/
structure Scanning (b : State) (W ws : List Word) (s : State) : Prop where
  busy : s.busy = true
  suffix : ws <:+ W
  cursor : s.scan.cur = cursorAt W ws
  limit : s.scan.lim = Config.eromLimitWords
  eromBase : s.scan.eromBase = b.scan.eromBase
  cfg : s.cfg = b.cfg
  params : s.params = b.params
  winReg : s.winReg = b.winReg
  bus : s.bus = b.bus

/-- The registers of the component are kept, whatever the cursor and the control point. -/
def ScanRegs.Kept (r r' : ScanRegs) : Prop := r' = { r with cur := r'.cur, pos := r'.pos }

theorem ScanRegs.Kept.refl (r : ScanRegs) : r.Kept r := rfl

theorem ScanRegs.Kept.trans {r r' r'' : ScanRegs} (h : r.Kept r') (k : r'.Kept r'') : r.Kept r'' := by
  unfold ScanRegs.Kept at *
  rw [k, h]

section Stream

variable {b s t u : State} {W ws : List Word} {w : Word}

/-- Other registers of the component, and the log, may change under the reader. -/
theorem Scanning.update (h : Scanning b W ws s) (hbusy : t.busy = s.busy := by rfl)
    (hcur : t.scan.cur = s.scan.cur := by rfl) (hlim : t.scan.lim = s.scan.lim := by rfl)
    (hbase : t.scan.eromBase = s.scan.eromBase := by rfl) (hcfg : t.cfg = s.cfg := by rfl)
    (hparams : t.params = s.params := by rfl) (hreg : t.winReg = s.winReg := by rfl)
    (hbus : t.bus = s.bus := by rfl) : Scanning b W ws t :=
  ⟨hbusy.trans h.busy, h.suffix, hcur.trans h.cursor, hlim.trans h.limit, hbase.trans h.eromBase, hcfg.trans h.cfg,
    hparams.trans h.params, hreg.trans h.winReg, hbus.trans h.bus⟩

theorem cursorAt_append (pre ws : List Word) : cursorAt (pre ++ ws) ws = BitVec.ofNat 32 pre.length := by
  simp [cursorAt]

/-- Before a word and after it. -/
theorem cursorAt_cons (h : w :: ws <:+ W) : cursorAt W ws = cursorAt W (w :: ws) + 1#32 := by
  obtain ⟨pre, rfl⟩ := h
  rw [cursorAt_append, List.append_cons, cursorAt_append, List.length_append, List.length_singleton, BitVec.ofNat_add]

/-- The word before the reader is what the bus answers at the cursor, which is below the limit. -/
theorem Scanning.word (hb : b.StreamIs W) (h : Scanning b W (w :: ws) s) :
    s.scan.cur < s.scan.lim ∧ s.advance.1 = w := by
  obtain ⟨pages, hdev⟩ := hb.device
  have hs : s.onReference pages := by unfold State.onReference; rw [h.bus]; exact hdev
  obtain ⟨pre, rfl⟩ := h.suffix
  have hcur : s.scan.cur = BitVec.ofNat 32 pre.length := h.cursor.trans (cursorAt_append pre _)
  have hfits : pre.length < 0x380 := by
    have := hb.fits
    simp only [List.length_append, List.length_cons, Config.eromLimitWords] at this
    simp at this
    omega
  refine ⟨?_, ?_⟩
  · rw [hcur, h.limit, Config.eromLimitWords, BitVec.lt_def, BitVec.toNat_ofNat, BitVec.toNat_ofNat]
    omega
  · have hwide : zext64 s.scan.cur = BitVec.ofNat 64 pre.length := by
      refine BitVec.eq_of_toNat_eq ?_
      rw [hcur, zext64, BitVec.toNat_setWidth, BitVec.toNat_ofNat, BitVec.toNat_ofNat]
      omega
    have hpa : s.streamPa = b.streamBase + 4#64 * BitVec.ofNat 64 pre.length := by
      unfold State.streamPa State.streamBase State.flat
      rw [hwide, h.eromBase, h.winReg, h.cfg]
    calc s.advance.1
      _ = referenceAnswer pages s.bus.mem s.streamPa := busAnswer_onReference hs _
      _ = b.busAnswer s.streamPa := by rw [h.bus, busAnswer_onReference hdev]
      _ = w := by rw [hpa]; exact hb.words _ w (by simp)

/-- Reading a word: the step runs it, from the registers as they were and the cursor past it. -/
theorem Scanning.read (hb : b.StreamIs W) (h : Scanning b W (w :: ws) s) : ∃ v, Scanning b W ws v ∧
    s.scan.Kept v.scan ∧ v.scan.pos = s.scan.pos ∧
    ∀ t, exec (decodeStream s.scan.pos.position w) v = .next t → Runs s t := by
  obtain ⟨hlt, hword⟩ := h.word hb
  obtain ⟨pages, hdev⟩ := hb.device
  have hscript : s.bus.script = [] := by rw [h.bus]; exact hdev.2
  refine ⟨s.advance.2, ?_, rfl, rfl, fun t ht => .of_step ?_⟩
  · have hbus : s.advance.2.bus = s.bus := memRead_bus_of_nil hscript .plain s.streamPa
    have hcur : s.advance.2.scan.cur = cursorAt W ws := by rw [cursorAt_cons h.suffix, ← h.cursor]; rfl
    exact { h with suffix := (List.suffix_cons w ws).trans h.suffix, cursor := hcur, bus := hbus.trans h.bus }
  · rw [step_scanning h.busy, if_neg (BitVec.not_le.mpr hlt), hword]
    exact ht

/-- Reading a word whose meaning at this control point is `f`. -/
theorem Scanning.readAs (hb : b.StreamIs W) (h : Scanning b W (w :: ws) s) (f : State → State)
    (hexec : ∀ v, v.busy = true → v.scan.pos = s.scan.pos → s.scan.Kept v.scan →
      exec (decodeStream s.scan.pos.position w) v = .next (f v)) :
    ∃ v, Runs s (f v) ∧ Scanning b W ws v ∧ s.scan.Kept v.scan := by
  obtain ⟨v, hv, hkept, hpos, hrun⟩ := h.read hb
  exact ⟨v, hrun _ (hexec v hv.busy hpos hkept), hv, hkept⟩

/-- Pushing a word back: the reader stands before it again (R156). -/
theorem Scanning.pushBack (hsuffix : w :: ws <:+ W) (h : Scanning b W ws s) : Scanning b W (w :: ws) s.pushBack := by
  have hcur : s.pushBack.scan.cur = cursorAt W (w :: ws) := by
    show s.scan.cur - 1#32 = _
    rw [h.cursor, cursorAt_cons hsuffix]
    exact BitVec.add_sub_cancel _ _
  exact { h with suffix := hsuffix, cursor := hcur }

end Stream

/-! ## An ASD unit (R105 to R111, R121) -/

/-- A value with bits 11:0 zero is its high word and its bits 31:12. -/
theorem hiLo_fields {v : Addr} (h : v.extractLsb' 0 12 = 0#12) :
    hiLo (highWord v) (v.extractLsb' 12 20 ++ 0#12) = v := by
  have hlow : v.extractLsb' 12 20 ++ v.extractLsb' 0 12 = v.extractLsb' 0 32 :=
    BitVec.extractLsb'_append_extractLsb'_eq_extractLsb' rfl
  have hall : v.extractLsb' 32 32 ++ v.extractLsb' 0 32 = v.extractLsb' 0 64 :=
    BitVec.extractLsb'_append_extractLsb'_eq_extractLsb' rfl
  calc hiLo (highWord v) (v.extractLsb' 12 20 ++ 0#12)
    _ = v.extractLsb' 32 32 ++ (v.extractLsb' 12 20 ++ v.extractLsb' 0 12) := by rw [h]; rfl
    _ = v := by rw [hlow]; exact hall.trans BitVec.extractLsb'_eq_self

theorem fixedSize_sizeCode {size : Addr} (h : sizeCode size ≠ 3#2) : fixedSize (sizeCode size) = size := by
  unfold sizeCode at *
  split
  · rename_i h0; rw [h0]; rfl
  · split
    · rename_i h1; rw [h1]; rfl
    · split
      · rename_i h2; rw [h2]; rfl
      · rename_i h0 h1 h2; simp [h0, h1, h2] at h

section Encoders

variable {addr size : Addr}

theorem encodeSize_fixed (hcode : sizeCode size ≠ 3#2) : encodeSize size = [] := if_neg hcode

theorem encodeSize_szd (hcode : sizeCode size = 3#2) (hhigh : highWord size = 0#32) :
    encodeSize size = [szdWord (size.extractLsb' 12 20) 0#8 0#1 0#3] := (if_pos hcode).trans (if_pos hhigh)

theorem encodeSize_sizeHi (hcode : sizeCode size = 3#2) (hhigh : highWord size ≠ 0#32) :
    encodeSize size = [szdWord (size.extractLsb' 12 20) 0#8 1#1 0#3, highWord size] :=
  (if_pos hcode).trans (if_neg hhigh)

theorem encodeAsd_low (hhigh : highWord addr = 0#32) (sp : BitVec 4) (st : AsdType) (size : Addr) :
    encodeAsd sp st addr size =
      asdWord st.code (addr.extractLsb' 12 20) sp (sizeCode size) 0#1 :: encodeSize size := if_pos hhigh

theorem encodeAsd_addrHi (hhigh : highWord addr ≠ 0#32) (sp : BitVec 4) (st : AsdType) (size : Addr) :
    encodeAsd sp st addr size = asdWord st.code (addr.extractLsb' 12 20) sp (sizeCode size) 1#1 :: highWord addr ::
      encodeSize size := if_neg hhigh

end Encoders

section Units

variable {b s : State} {W ws : List Word} {site : AsdSite} {addr size : Addr}

theorem Scanning.addrHi {hi lo : Word} {sz : BitVec 2} (hb : b.StreamIs W) (h : Scanning b W (hi :: ws) s) :
    ∃ v, Runs (s.goTo (.addrHi site lo sz)) (v.unitAddr site (hiLo hi lo) sz) ∧ Scanning b W ws v ∧
      s.scan.Kept v.scan :=
  have hthere : Scanning b W (hi :: ws) (s.goTo (.addrHi site lo sz)) := h.update
  hthere.readAs hb (fun v => v.takeAddrHi site lo sz hi) fun _ hbusy hpos _ => positionalWord_addrHi hbusy hpos

theorem Scanning.szd {bits : BitVec 20} {sg : BitVec 1} (hb : b.StreamIs W)
    (h : Scanning b W (szdWord bits 0#8 sg 0#3 :: ws) s) :
    ∃ v, Runs (s.goTo (.szd site addr)) (v.takeSzd site addr (szdWord bits 0#8 sg 0#3)) ∧ Scanning b W ws v ∧
      s.scan.Kept v.scan := by
  have hthere : Scanning b W (szdWord bits 0#8 sg 0#3 :: ws) (s.goTo (.szd site addr)) := h.update
  refine hthere.readAs hb (fun v => v.takeSzd site addr (szdWord bits 0#8 sg 0#3)) fun v hbusy hpos _ => ?_
  rw [goTo_scan, ScanPos.position, decodeStream_szdWord]
  exact positionalWord_szd hbusy hpos

theorem Scanning.sizeHi {hi lo : Word} (hb : b.StreamIs W) (h : Scanning b W (hi :: ws) s) :
    ∃ v, Runs (s.goTo (.sizeHi site addr lo)) (v.unitDone site addr (hiLo hi lo)) ∧ Scanning b W ws v ∧
      s.scan.Kept v.scan :=
  have hthere : Scanning b W (hi :: ws) (s.goTo (.sizeHi site addr lo)) := h.update
  hthere.readAs hb (fun v => v.takeSizeHi site addr lo hi) fun _ hbusy hpos _ => positionalWord_sizeHi hbusy hpos

/-- The size words of an encoded unit (R110, R111). -/
theorem Scanning.sizeWords (hb : b.StreamIs W) (h : Scanning b W (encodeSize size ++ ws) s)
    (hsize : size.extractLsb' 0 12 = 0#12) :
    ∃ u, Runs (s.unitAddr site addr (sizeCode size)) (u.unitDone site addr size) ∧ Scanning b W ws u ∧
      s.scan.Kept u.scan := by
  have hfields := hiLo_fields hsize
  by_cases hcode : sizeCode size = 3#2
  · rw [hcode, unitAddr_szd]
    by_cases hhigh : highWord size = 0#32
    · rw [encodeSize_szd hcode hhigh] at h
      obtain ⟨v, hrun, hv, hkept⟩ := Scanning.szd (site := site) (addr := addr) hb h
      rw [takeSzd_size, ← hiLo_zero_append] at hrun
      rw [hhigh] at hfields
      exact ⟨v, hfields ▸ hrun, hv, hkept⟩
    · rw [encodeSize_sizeHi hcode hhigh] at h
      obtain ⟨v, hrun, hv, hkept⟩ := Scanning.szd (site := site) (addr := addr) hb h
      rw [takeSzd_sizeHi] at hrun
      obtain ⟨u, hrun', hu, hkept'⟩ := Scanning.sizeHi (site := site) (addr := addr) hb hv
      rw [hfields] at hrun'
      exact ⟨u, hrun.trans hrun', hu, hkept.trans hkept'⟩
  · rw [encodeSize_fixed hcode] at h
    rw [unitAddr_fixed hcode, fixedSize_sizeCode hcode]
    exact ⟨s, .refl _, h, .refl _⟩

theorem asdFields_asdInstr (st : AsdType) (a : BitVec 20) (sp : BitVec 4) (sz : BitVec 2) (ag : BitVec 1) :
    asdFields (asdInstr st a sp sz ag) = some (st, a, sp, sz, ag) := by
  cases st <;> rfl

/-- The head of a unit that the site wants. -/
theorem Scanning.head {st : AsdType} {a : BitVec 20} {sp : BitVec 4} {sz : BitVec 2} {ag : BitVec 1}
    (hb : b.StreamIs W) (h : Scanning b W (asdWord st.code a sp sz ag :: ws) s) (hpos : s.scan.pos = .asd site)
    (hwants : (sp.toNat, st) = site.wants s.scan.nsp) :
    ∃ v, Runs s (if ag = 1#1 then v.goTo (.addrHi site (a ++ 0#12) sz) else v.unitAddr site (hiLo 0 (a ++ 0#12)) sz) ∧
      Scanning b W ws v ∧ s.scan.Kept v.scan := by
  refine h.readAs hb _ fun v hbusy hthere hkept => ?_
  have hnsp : v.scan.nsp = s.scan.nsp := (congrArg ScanRegs.nsp hkept :)
  rw [hpos, ScanPos.position, decodeStream, decodeTagged_asdWord, exec_asdFields (asdFields_asdInstr ..),
    taggedWord_asd hbusy (hthere.trans hpos), asdHead_accepted (hnsp ▸ hwants)]

/-- An encoded unit that the site wants is read whole (R121, R156). -/
theorem Scanning.unit {st : AsdType} {sp : BitVec 4} (hb : b.StreamIs W)
    (h : Scanning b W (encodeAsd sp st addr size ++ ws) s) (hpos : s.scan.pos = .asd site)
    (hwants : (sp.toNat, st) = site.wants s.scan.nsp) (haddr : addr.extractLsb' 0 12 = 0#12)
    (hsize : size.extractLsb' 0 12 = 0#12) :
    ∃ u, Runs s (u.unitDone site addr size) ∧ Scanning b W ws u ∧ s.scan.Kept u.scan := by
  have hfields := hiLo_fields haddr
  by_cases hhigh : highWord addr = 0#32
  · rw [encodeAsd_low hhigh] at h
    obtain ⟨v, hrun, hv, hkept⟩ := h.head hb hpos hwants
    obtain ⟨u, hrun', hu, hkept'⟩ := Scanning.sizeWords (site := site) (addr := addr) hb hv hsize
    rw [if_neg (by decide)] at hrun
    rw [hhigh] at hfields
    exact ⟨u, (hfields ▸ hrun).trans hrun', hu, hkept.trans hkept'⟩
  · rw [encodeAsd_addrHi hhigh] at h
    obtain ⟨v, hrun, hv, hkept⟩ := h.head hb hpos hwants
    obtain ⟨x, hrunHi, hx, hkeptHi⟩ := Scanning.addrHi (site := site) (lo := addr.extractLsb' 12 20 ++ 0#12)
      (sz := sizeCode size) hb hv
    rw [hfields] at hrunHi
    obtain ⟨u, hrun', hu, hkept'⟩ := Scanning.sizeWords (site := site) (addr := addr) hb hx hsize
    rw [if_pos rfl] at hrun
    exact ⟨u, (hrun.trans hrunHi).trans hrun', hu, (hkept.trans hkeptHi).trans hkept'⟩

end Units

/-! ## A row and its component record (R224) -/

/-- The secondary space of a row, as the ASD it is scanned from. -/
def CoreDescriptor.secondaryAsd (d : CoreDescriptor) : Option Asd :=
  match d.secondaryAddr, d.secondarySize with
  | some a, some z => some { port := 0, type := .slave, addr := a, size := z }
  | _, _ => none

/-- The words of its secondary ASD. -/
def CoreDescriptor.secondaryWords (d : CoreDescriptor) : List Word :=
  d.secondaryAsd.elim [] fun a => encodeAsd 0#4 .slave a.addr a.size

/-- The words of its wrapper ASD. -/
def CoreDescriptor.wrapperWords (d : CoreDescriptor) : List Word :=
  d.wrapperAddr.elim [] fun a => encodeAsd 0#4 .mwrap a 0x1000#64

theorem encodeRow_eq (d : CoreDescriptor) : encodeRow d =
    ciaWord 0x4BF#12 (d.coreId.setWidth 12) 0#4 ::
      cibWord d.rawRev 0#5 (if d.wrapperAddr.isSome then 1#5 else 0#5) 1#5 0#5 1#1 ::
      (encodeAsd 0#4 .slave d.primaryAddr d.primarySize ++ (d.secondaryWords ++ d.wrapperWords)) := by
  unfold encodeRow CoreDescriptor.secondaryWords CoreDescriptor.wrapperWords CoreDescriptor.secondaryAsd
  cases d.secondaryAddr <;> cases d.secondarySize <;> cases d.wrapperAddr <;> simp

/-- A value that a stream can give, said as a proposition. -/
theorem streamValue_iff (strict : Bool) (v : Addr) :
    streamValue strict v = true ↔ v.extractLsb' 0 12 = 0#12 ∧ (strict = true → highWord v = 0#32) := by
  cases strict <;> simp [streamValue]

/-- The conditions of R224 on a row, those that its scan meets. -/
structure RowFits (p : Params) (k : Nat) (d : CoreDescriptor) : Prop where
  index : d.coreIndex = BitVec.ofNat 32 k
  id : d.coreId.toNat < 0x1000
  primaryAddr : streamValue p.strictAsd d.primaryAddr = true
  primarySize : streamValue p.strictAsd d.primarySize = true
  secondary : (d.secondaryAddr = none ∧ d.secondarySize = none) ∨
    ∃ a, d.secondaryAddr = some a ∧ d.secondarySize = some 0x1000#64 ∧ streamValue p.strictAsd a = true
  wrapper : ∀ a, d.wrapperAddr = some a → streamValue p.strictAsd a = true
  kind : p.skipKinds.contains (0x4BF#12, d.coreId.setWidth 12) = false

theorem rowFits_of_roundTripRow {p : Params} {k : Nat} {d : CoreDescriptor} (h : roundTripRow p k d = true) :
    RowFits p k d := by
  unfold roundTripRow at h
  obtain ⟨h, -⟩ := Bool.and_eq_true_iff.mp h
  obtain ⟨h, hkind⟩ := Bool.and_eq_true_iff.mp h
  obtain ⟨h, hwrapper⟩ := Bool.and_eq_true_iff.mp h
  obtain ⟨h, hsecondary⟩ := Bool.and_eq_true_iff.mp h
  obtain ⟨h, hsize⟩ := Bool.and_eq_true_iff.mp h
  obtain ⟨h, haddr⟩ := Bool.and_eq_true_iff.mp h
  obtain ⟨hindex, hid⟩ := Bool.and_eq_true_iff.mp h
  refine ⟨eq_of_beq hindex, of_decide_eq_true hid, haddr, hsize, ?_, fun a ha => ?_,
    by rwa [Bool.not_eq_true'] at hkind⟩
  · cases hsa : d.secondaryAddr with
    | none =>
      cases hsz : d.secondarySize with
      | none => exact .inl ⟨rfl, rfl⟩
      | some z => rw [hsa, hsz] at hsecondary; cases hsecondary
    | some a =>
      cases hsz : d.secondarySize with
      | none => rw [hsa, hsz] at hsecondary; cases hsecondary
      | some z =>
        rw [hsa, hsz] at hsecondary
        obtain ⟨ha, hz⟩ := Bool.and_eq_true_iff.mp hsecondary
        exact .inr ⟨a, rfl, congrArg some (eq_of_beq hz), ha⟩
  · rw [ha] at hwrapper
    exact hwrapper

theorem RowFits.secondary_allowed {p : Params} {k : Nat} {d : CoreDescriptor} (h : RowFits p k d) (a : Asd)
    (ha : d.secondaryAsd = some a) : streamValue p.strictAsd a.addr = true := by
  unfold CoreDescriptor.secondaryAsd at ha
  rcases h.secondary with ⟨haddr, -⟩ | ⟨x, haddr, hsize, hx⟩
  · rw [haddr] at ha; cases ha
  · rw [haddr, hsize] at ha; cases ha; exact hx

/-- The registers of a component in progress hold the row `d`, the rows before it being `rows`. -/
structure Component (d : CoreDescriptor) (rows : List CoreDescriptor) (r : ScanRegs) : Prop where
  cid : r.cid = d.coreId.setWidth 12
  rev : r.rev = d.rawRev
  nsp : r.nsp = 1#5
  nmw : r.nmw = if d.wrapperAddr.isSome then 1#5 else 0#5
  nsw : r.nsw = 0#5
  br : r.br = false
  rows : r.rows = rows

section Rows

variable {b s : State} {W ws : List Word} {w : Word} {d : CoreDescriptor} {rows : List CoreDescriptor}
  {r r' : ScanRegs} {n : Nat} {first : Option Asd}

theorem Component.kept (h : Component d rows r) (k : r.Kept r') : Component d rows r' where
  cid := (congrArg ScanRegs.cid k :).trans h.cid
  rev := (congrArg ScanRegs.rev k :).trans h.rev
  nsp := (congrArg ScanRegs.nsp k :).trans h.nsp
  nmw := (congrArg ScanRegs.nmw k :).trans h.nmw
  nsw := (congrArg ScanRegs.nsw k :).trans h.nsw
  br := (congrArg ScanRegs.br k :).trans h.br
  rows := (congrArg ScanRegs.rows k :).trans h.rows

/-! ## The identity pair -/

theorem classify_plain (hkind : s.params.skipKinds.contains (s.scan.mfg, s.scan.cid) = false)
    (hnsp : s.scan.nsp ≠ 0#5) (hnmp : s.scan.nmp = 0#5) :
    s.classify = State.goTo (.asd .primary) { s with scan := { s.scan with br := false } } := by
  rw [State.classify, if_neg (Bool.not_eq_true _ ▸ hkind), if_neg hnsp, if_pos hnmp]

/-- The identity pair of a row opens its component, and the primary is tried next. -/
theorem Scanning.identityPair {v : BitVec 1} (hb : b.StreamIs W)
    (h : Scanning b W (ciaWord 0x4BF#12 (d.coreId.setWidth 12) 0#4 ::
      cibWord d.rawRev 0#5 (if d.wrapperAddr.isSome then 1#5 else 0#5) 1#5 0#5 v :: ws) s)
    (hpos : s.scan.pos = .identity) (hkind : b.params.skipKinds.contains (0x4BF#12, d.coreId.setWidth 12) = false) :
    ∃ t, Runs s t ∧ Scanning b W ws t ∧ t.scan.pos = .asd .primary ∧ Component d s.scan.rows t.scan := by
  obtain ⟨x, hrun, hx, hkept⟩ := h.readAs hb
    (fun x => { x with scan := { x.scan with cia := ciaWord 0x4BF#12 (d.coreId.setWidth 12) 0#4, pos := .cib } })
    fun x hbusy hthere _ => by
      rw [hpos, ScanPos.position, decodeStream, decodeTagged_ciaWord]
      exact exec_cia hbusy (hthere.trans hpos)
  have hopened : Scanning b W _ { x with
    scan := { x.scan with cia := ciaWord 0x4BF#12 (d.coreId.setWidth 12) 0#4, pos := .cib } } := hx.update
  obtain ⟨y, hrun', hy, hkept'⟩ := hopened.readAs hb
    (fun y => y.takeCib (cibWord d.rawRev 0#5 (if d.wrapperAddr.isSome then 1#5 else 0#5) 1#5 0#5 v))
    fun y hbusy hthere _ => by
      rw [ScanPos.position, decodeStream_cibWord]
      exact positionalWord_cib hbusy hthere
  have hcia : y.scan.cia = ciaWord 0x4BF#12 (d.coreId.setWidth 12) 0#4 := (congrArg ScanRegs.cia hkept' :)
  obtain ⟨hmfg, hcid, -⟩ := (ciaWord_eq_iff 0x4BF#12 (d.coreId.setWidth 12) 0#4).mp rfl
  rw [← hcia] at hmfg hcid
  rw [takeCib_cibWord, ← hmfg, ← hcid, classify_plain (by rw [hy.params]; exact hkind) (by simp) rfl] at hrun'
  have hrows : y.scan.rows = s.scan.rows := (congrArg ScanRegs.rows hkept' :).trans (congrArg ScanRegs.rows hkept :)
  exact ⟨_, hrun.trans hrun', hy.update, rfl, ⟨rfl, rfl, rfl, rfl, rfl, rfl, hrows⟩⟩

/-! ## The slave ASDs of port 0 -/

/-- A high half that is allowed costs a warning at most (R208). -/
theorem strictHigh_allowed {ah sh : Word} (h : s.params.strictAsd = true → ah = 0#32 ∧ sh = 0#32)
    (next : State → State) : ∃ lg, s.strictHigh ah sh next = next { s with log := lg } := by
  by_cases hzero : ah = 0#32 ∧ sh = 0#32
  · exact ⟨_, strictHigh_zero hzero⟩
  · exact ⟨_, strictHigh_lenient hzero (by simpa using mt h hzero)⟩

theorem Scanning.primary {a z : Addr} (hb : b.StreamIs W) (h : Scanning b W (encodeAsd 0#4 .slave a z ++ ws) s)
    (hpos : s.scan.pos = .asd .primary) (hc : Component d rows s.scan)
    (ha : streamValue b.params.strictAsd a = true) (hz : streamValue b.params.strictAsd z = true) :
    ∃ t, Runs s t ∧ Scanning b W ws t ∧ t.scan.pos = .asd (.extra 0 none) ∧ Component d rows t.scan ∧
      t.scan.pri = { port := 0, type := .slave, addr := a, size := z } := by
  obtain ⟨hlowA, hhighA⟩ := (streamValue_iff _ _).mp ha
  obtain ⟨hlowZ, hhighZ⟩ := (streamValue_iff _ _).mp hz
  obtain ⟨u, hrun, hu, hkept⟩ := h.unit hb hpos rfl hlowA hlowZ
  obtain ⟨lg, hchecked⟩ := strictHigh_allowed
    (s := { u with scan := { u.scan with pri := { port := 0, type := .slave, addr := a, size := z } } })
    (fun hstrict => ⟨hhighA (hu.params ▸ hstrict), hhighZ (hu.params ▸ hstrict)⟩) (State.goTo (.asd (.extra 0 none)))
  have hdone : u.unitDone .primary a z = _ := hchecked
  rw [hdone] at hrun
  exact ⟨_, hrun, hu.update, rfl, { hc.kept hkept with }, rfl⟩

/-- The secondary ASD of a row, if it has one, is the one further ASD (R209). -/
theorem Scanning.secondary {k : Nat} (hb : b.StreamIs W) (hd : RowFits b.params k d)
    (h : Scanning b W (d.secondaryWords ++ ws) s) (hpos : s.scan.pos = .asd (.extra 0 none))
    (hc : Component d rows s.scan) :
    ∃ t n first, Runs s t ∧ Scanning b W ws t ∧ t.scan.pos = .asd (.extra n first) ∧ Component d rows t.scan ∧
      t.scan.pri = s.scan.pri ∧ secondaryOf n first = d.secondaryAsd := by
  unfold CoreDescriptor.secondaryWords at h
  rcases hd.secondary with ⟨haddr, hsize⟩ | ⟨a, haddr, hsize, ha⟩
  · have hnone : d.secondaryAsd = none := by rw [CoreDescriptor.secondaryAsd, haddr]
    rw [hnone] at h ⊢
    exact ⟨s, 0, none, .refl s, h, hpos, hc, rfl, rfl⟩
  · have hsome : d.secondaryAsd = some { port := 0, type := .slave, addr := a, size := 0x1000#64 } := by
      rw [CoreDescriptor.secondaryAsd, haddr, hsize]
    rw [hsome] at h ⊢
    obtain ⟨u, hrun, hu, hkept⟩ := h.unit hb hpos rfl ((streamValue_iff _ _).mp ha).1
      (show (0x1000#64).extractLsb' 0 12 = 0#12 by decide)
    exact ⟨_, 1, _, hrun, hu.update, rfl, { hc.kept hkept with }, (congrArg ScanRegs.pri hkept :), rfl⟩

/-- A valid word that is no slave ASD of port 0, as the next region or component begins with. -/
def EndsSlaveAsds (w : Word) : Prop :=
  validTagged (decodeTagged w) = true ∧ ∀ st a sp sz ag, asdFields (decodeTagged w) = some (st, a, sp, sz, ag) →
    st ≠ .slave

theorem EndsSlaveAsds.rejectedAt (hw : EndsSlaveAsds w) (hpos : s.scan.pos = .asd (.extra n first)) :
    s.rejectedAt (decodeTagged w) = some (.extra n first) := by
  obtain ⟨hvalid, hfields⟩ := hw
  simp only [State.rejectedAt, hpos, hvalid, if_true]
  cases h : asdFields (decodeTagged w) with
  | none => rfl
  | some fields =>
    obtain ⟨st, a, sp, sz, ag⟩ := fields
    exact if_neg fun hwants => hfields st a sp sz ag h (congrArg Prod.snd hwants)

theorem endsSlaveAsds_mwrap (a : BitVec 20) (sp : BitVec 4) (sz : BitVec 2) (ag : BitVec 1) :
    EndsSlaveAsds (asdWord AsdType.mwrap.code a sp sz ag) := by
  unfold EndsSlaveAsds
  rw [decodeTagged_asdWord]
  exact ⟨rfl, fun st a sp sz ag h => by cases h; exact nofun⟩

theorem endsSlaveAsds_cia (mfg cid : BitVec 12) (ccl : BitVec 4) : EndsSlaveAsds (ciaWord mfg cid ccl) := by
  unfold EndsSlaveAsds
  rw [decodeTagged_ciaWord]
  exact ⟨rfl, nofun⟩

theorem endsSlaveAsds_end : EndsSlaveAsds 0x0000000F#32 := ⟨by decide, nofun⟩

theorem slavePorts_of_one (hnsp : s.scan.nsp = 1#5) :
    s.slavePorts 1 = State.masterWraps 0 { s with scan := { s.scan with wrap := none } } := by
  rw [State.slavePorts, hnsp]
  rfl

/-- The words begin with one that no slave ASD of port 0 begins with. -/
def OpensRegion (ws : List Word) : Prop := ∃ w tail, ws = w :: tail ∧ EndsSlaveAsds w

/-- At the next region or component the secondary is settled (R210) and the wrappers follow (R212). -/
theorem Scanning.endExtras (hb : b.StreamIs W) (hws : OpensRegion ws) (h : Scanning b W ws s)
    (hpos : s.scan.pos = .asd (.extra n first)) (hc : Component d rows s.scan)
    (hsec : ∀ a, secondaryOf n first = some a → streamValue b.params.strictAsd a.addr = true) :
    ∃ t, Runs s (t.masterWraps 0) ∧ Scanning b W ws t ∧ Component d rows t.scan ∧
      t.scan.pri = s.scan.pri ∧ t.scan.sec = secondaryOf n first ∧ t.scan.wrap = none := by
  obtain ⟨w, tail, rfl, hw⟩ := hws
  obtain ⟨v, hrun, hv, hkept⟩ := h.readAs hb (fun v => v.pushBack.endExtras n first) fun v hbusy hthere _ => by
    rw [hpos, ScanPos.position, decodeStream]
    exact exec_rejectedAt hbusy (hw.rejectedAt (hthere.trans hpos))
  have hcv := hc.kept hkept
  have hback := hv.pushBack h.suffix
  obtain ⟨lg, hend⟩ : ∃ lg, v.pushBack.endExtras n first = State.slavePorts 1
      { v.pushBack with log := lg, scan := { v.pushBack.scan with sec := secondaryOf n first } } := by
    cases hs : secondaryOf n first with
    | none => exact ⟨_, hs ▸ endExtras_unchecked (s := v.pushBack) (.inl hs)⟩
    | some a =>
      rw [endExtras_checked (s := v.pushBack) hs hcv.br, hs]
      exact strictHigh_allowed (s := { v.pushBack with scan := { v.pushBack.scan with sec := some a } })
        (fun hstrict => ⟨((streamValue_iff _ _).mp (hsec a hs)).2 (hv.params ▸ hstrict), rfl⟩) (State.slavePorts 1)
  have hports : State.slavePorts 1
      { v.pushBack with log := lg, scan := { v.pushBack.scan with sec := secondaryOf n first } } = _ :=
    slavePorts_of_one hcv.nsp
  rw [hend, hports] at hrun
  exact ⟨_, hrun, hback.update, { hcv with }, (congrArg ScanRegs.pri hkept :), rfl, rfl⟩

/-! ## The wrapper and the commit -/

theorem masterWraps_of_last {i : Nat} (hnmw : s.scan.nmw.toNat ≤ i) (hnsw : s.scan.nsw = 0#5) :
    s.masterWraps i = s.commit := by
  rw [State.masterWraps, if_neg (Nat.not_lt.mpr hnmw), State.slaveWraps, hnsw]
  rfl

/-- A master wrapper of one core window, its address allowed, is the first and the last of its component. -/
theorem unitDone_masterWrap {a : Addr} (hwrap : s.scan.wrap = none) (hnmw : s.scan.nmw = 1#5)
    (hnsw : s.scan.nsw = 0#5) (ha : streamValue s.params.strictAsd a = true) :
    ∃ lg, s.unitDone (.masterWrap 0) a 0x1000#64 =
      State.commit { s with log := lg, scan := { s.scan with wrap := some a } } := by
  have hpasses : ¬s.wrapHighFails a := fun ⟨_, _, hne, hstrict⟩ => hne (((streamValue_iff _ _).mp ha).2 hstrict)
  have hdone : s.unitDone (.masterWrap 0) a 0x1000#64 = ((s.sizeWarned 0x1000#64).wrapRecorded a).masterWraps 1 :=
    (wrapSize_recordWrap (a := { port := 0, type := .mwrap, addr := a, size := 0x1000#64 }) (c := .mwSize 0)
      (.inl rfl)).2 hpasses
  have hsilent : s.sizeWarned 0x1000#64 = s := if_pos rfl
  have hrecorded : s.wrapRecorded a = _ := if_pos hwrap
  rw [hdone, hsilent, hrecorded]
  refine ⟨_, masterWraps_of_last ?_ hnsw⟩
  rw [hnmw]
  exact Nat.le_refl 1

/-- The wrapper ASD of a row, if it has one, is recorded (R212 to R215). -/
theorem Scanning.wrapper {k : Nat} (hb : b.StreamIs W) (hd : RowFits b.params k d)
    (h : Scanning b W (d.wrapperWords ++ ws) s) (hc : Component d rows s.scan) (hwrap : s.scan.wrap = none) :
    ∃ t, Runs (s.masterWraps 0) t.commit ∧ Scanning b W ws t ∧ Component d rows t.scan ∧
      t.scan.pri = s.scan.pri ∧ t.scan.sec = s.scan.sec ∧ t.scan.wrap = d.wrapperAddr := by
  unfold CoreDescriptor.wrapperWords at h
  cases hwb : d.wrapperAddr with
  | none =>
    rw [hwb] at h
    have hnmw : s.scan.nmw = 0#5 := by rw [hc.nmw, hwb]; rfl
    rw [masterWraps_of_last (by rw [hnmw]; exact Nat.le_refl 0) hc.nsw]
    exact ⟨s, .refl _, h, hc, rfl, rfl, hwrap⟩
  | some wb =>
    rw [hwb] at h
    have hnmw : s.scan.nmw = 1#5 := by rw [hc.nmw, hwb]; rfl
    have htry : s.masterWraps 0 = s.goTo (.asd (.masterWrap 0)) := by rw [State.masterWraps, hnmw]; rfl
    have hthere : Scanning b W _ (s.goTo (.asd (.masterWrap 0))) := h.update
    have hallowed := hd.wrapper wb hwb
    obtain ⟨u, hrun, hu, hkept⟩ := hthere.unit hb rfl rfl ((streamValue_iff _ _).mp hallowed).1
      (show (0x1000#64).extractLsb' 0 12 = 0#12 by decide)
    have hcu : Component d rows u.scan := Component.kept (r := (s.goTo (.asd (.masterWrap 0))).scan) { hc with } hkept
    obtain ⟨lg, hdone⟩ := unitDone_masterWrap ((congrArg ScanRegs.wrap hkept :).trans hwrap)
      (hcu.nmw.trans (by rw [hwb]; rfl)) hcu.nsw (hu.params ▸ hallowed)
    rw [hdone, ← htry] at hrun
    exact ⟨_, hrun, hu.update, { hcu with }, (congrArg ScanRegs.pri hkept :), (congrArg ScanRegs.sec hkept :), rfl⟩

theorem opensRegion_wrapperWords (hws : OpensRegion ws) : OpensRegion (d.wrapperWords ++ ws) := by
  unfold CoreDescriptor.wrapperWords
  cases d.wrapperAddr with
  | none => exact hws
  | some a =>
    by_cases hhigh : highWord a = 0#32
    · exact ⟨_, _, congrArg (· ++ ws) (encodeAsd_low hhigh ..), endsSlaveAsds_mwrap ..⟩
    · exact ⟨_, _, congrArg (· ++ ws) (encodeAsd_addrHi hhigh ..), endsSlaveAsds_mwrap ..⟩

theorem newRow_eq (hc : Component d rows s.scan) (hd : RowFits s.params s.scan.rows.length d)
    (hremap : ∀ cid, s.params.remappedId s.cfg.family cid = cid)
    (hpri : s.scan.pri = { port := 0, type := .slave, addr := d.primaryAddr, size := d.primarySize })
    (hsec : s.scan.sec = d.secondaryAsd) (hwrap : s.scan.wrap = d.wrapperAddr) : s.newRow = d := by
  have hid : (d.coreId.setWidth 12).setWidth 16 = d.coreId := by
    have := hd.id
    refine BitVec.eq_of_toNat_eq ?_
    rw [BitVec.toNat_setWidth, BitVec.toNat_setWidth]
    omega
  have hsecondary : d.secondaryAsd.map Asd.addr = d.secondaryAddr ∧ d.secondaryAsd.map Asd.size = d.secondarySize := by
    unfold CoreDescriptor.secondaryAsd
    rcases hd.secondary with ⟨haddr, hsize⟩ | ⟨a, haddr, hsize, -⟩
    · rw [haddr, hsize]; exact ⟨rfl, rfl⟩
    · rw [haddr, hsize]; exact ⟨rfl, rfl⟩
  unfold State.newRow
  rw [hremap, hc.cid, hid, hc.rev, hpri, hsec, hwrap, ← hd.index, hsecondary.1, hsecondary.2]

/-- The encoding of a row is read whole, and the row joins the table (R218). -/
theorem Scanning.row (hb : b.StreamIs W) (hremap : ∀ cid, b.params.remappedId b.cfg.family cid = cid)
    (hws : OpensRegion ws) (h : Scanning b W (encodeRow d ++ ws) s) (hpos : s.scan.pos = .identity)
    (hd : RowFits b.params s.scan.rows.length d) (hroom : s.scan.rows.length ≠ b.params.maxCores) :
    ∃ t, Runs s t ∧ Scanning b W ws t ∧ t.scan.pos = .identity ∧ t.scan.rows = s.scan.rows ++ [d] := by
  rw [encodeRow_eq, List.cons_append, List.cons_append, List.append_assoc, List.append_assoc] at h
  obtain ⟨s₁, run₁, h₁, hpos₁, hc₁⟩ := h.identityPair hb hpos hd.kind
  obtain ⟨s₂, run₂, h₂, hpos₂, hc₂, hpri₂⟩ := h₁.primary hb hpos₁ hc₁ hd.primaryAddr hd.primarySize
  obtain ⟨s₃, n, first, run₃, h₃, hpos₃, hc₃, hpri₃, hof⟩ := h₂.secondary hb hd hpos₂ hc₂
  obtain ⟨s₄, run₄, h₄, hc₄, hpri₄, hsec₄, hwrap₄⟩ :=
    h₃.endExtras hb (opensRegion_wrapperWords hws) hpos₃ hc₃ (hof ▸ hd.secondary_allowed)
  obtain ⟨s₅, run₅, h₅, hc₅, hpri₅, hsec₅, hwrap₅⟩ := h₄.wrapper hb hd hc₄ hwrap₄
  have hrow : s₅.newRow = d := newRow_eq hc₅ (by rw [hc₅.rows, h₅.params]; exact hd)
    (by rw [h₅.params, h₅.cfg]; exact hremap) (hpri₅.trans (hpri₄.trans (hpri₃.trans hpri₂)))
    (hsec₅.trans (hsec₄.trans hof)) hwrap₅
  have hcommit : s₅.commit =
      { s₅ with scan := { s₅.scan with pos := .identity, rows := s₅.scan.rows ++ [d] } } := by
    rw [commit_eq, hc₅.br, hrow, if_neg (by simp), if_neg (by rw [hc₅.rows, h₅.params]; exact hroom)]
  rw [hcommit] at run₅
  exact ⟨_, run₁.trans (run₂.trans (run₃.trans (run₄.trans run₅))), h₅.update, rfl, congrArg (· ++ [d]) hc₅.rows⟩

/-! ## The table and END -/

theorem encodeTable_cons (d : CoreDescriptor) (rest : List CoreDescriptor) :
    encodeTable (d :: rest) = encodeRow d ++ encodeTable rest := by
  simp [encodeTable]

theorem opensRegion_encodeTable (rows : List CoreDescriptor) : OpensRegion (encodeTable rows) := by
  cases rows with
  | nil => exact ⟨_, [], rfl, endsSlaveAsds_end⟩
  | cons d rest => exact ⟨_, _, by rw [encodeTable_cons, encodeRow_eq]; rfl, endsSlaveAsds_cia ..⟩

/-- From the identity search the encoding of rows is read whole, and END ends the scan (R112, R218). -/
theorem Scanning.table (hb : b.StreamIs W) (hremap : ∀ cid, b.params.remappedId b.cfg.family cid = cid)
    (h : Scanning b W (encodeTable rows) s) (hpos : s.scan.pos = .identity)
    (hrows : roundTripRows b.params s.scan.rows.length rows = true)
    (hroom : s.scan.rows.length + rows.length ≤ b.params.maxCores) :
    ∃ v : State, Runs s v.scanDone ∧ v.scan.pos = .identity ∧ v.scan.rows = s.scan.rows ++ rows := by
  induction rows generalizing s with
  | nil =>
    obtain ⟨v, hv, hkept, hthere, hrun⟩ := h.read hb
    have hdone : exec (decodeStream s.scan.pos.position 0x0000000F#32) v = .next v.scanDone := by
      rw [hpos]
      exact exec_end (.inr rfl) hv.busy (hthere.trans hpos)
    exact ⟨v, hrun _ hdone, hthere.trans hpos, (congrArg ScanRegs.rows hkept :).trans (List.append_nil _).symm⟩
  | cons d rest ih =>
    obtain ⟨hd, hrest⟩ := Bool.and_eq_true_iff.mp hrows
    rw [List.length_cons] at hroom
    obtain ⟨t, hrun, ht, hpos', hrows'⟩ := Scanning.row hb hremap (opensRegion_encodeTable rest)
      (encodeTable_cons d rest ▸ h) hpos (rowFits_of_roundTripRow hd) (by omega)
    have hlen : t.scan.rows.length = s.scan.rows.length + 1 := by rw [hrows', List.length_append]; rfl
    obtain ⟨v, hrun', hdone, hall⟩ := ih ht hpos' (by rw [hlen]; exact hrest) (by omega)
    exact ⟨v, hrun.trans hrun', hdone, by rw [hall, hrows', List.append_assoc]; rfl⟩

end Rows

/-! ## SCAN's own step and the round trip -/

section Start

variable {s u : State} {p : Word} {pages : List (BitVec 52)} {W : List Word}

/-- The enumeration pointer that SCAN reads is the reference device's answer. -/
theorem eromPtr_onReference (hdev : s.onReference pages) :
    s.begin.scanPrologue.eromPtr = s.busAnswer (Config.bootCoreBase + Config.eromPtrOffset) :=
  (busAnswer_onReference
    (s := { s.begin.scanPrologue with trace := s.begin.scanPrologue.trace ++ [s.begin.scanPrologue.bootEvent] })
    hdev _).trans (busAnswer_onReference hdev _).symm

/-- SCAN's own step opens the stream at an aligned pointer (R195, R196). -/
theorem exec_scan_opensStream (hready : s.ready) (hgen : s.cfg.busGen = .advanced) (hdev : s.onReference pages)
    (halign : p.extractLsb' 0 2 = 0#2) (hptr : s.busAnswer (Config.bootCoreBase + Config.eromPtrOffset) = p) :
    ∃ u : State, exec .scan s = .next (u.openStream p) ∧ u.bus = s.bus ∧ u.cfg = s.cfg ∧ u.params = s.params ∧
      u.busy = true ∧ (u.openStream p).streamBase = zext64 p := by
  have hread := (eromPtr_onReference hdev).trans hptr
  obtain ⟨u, hu, hmem, hprobe⟩ := (locateStream_spec s.begin.scanPrologue).1 (hread ▸ halign)
  rw [hread] at hu hprobe
  have hbus : u.bus = s.bus := by
    have hdevice : u.bus.device = s.bus.device := hprobe.device
    have hscript : u.bus.script = s.bus.script := (hprobe.script hdev.2).trans hdev.2.symm
    have hmem : u.bus.mem = s.bus.mem := hmem
    calc u.bus
      _ = ⟨u.bus.device, u.bus.script, u.bus.mem⟩ := rfl
      _ = s.bus := by rw [hdevice, hscript, hmem]
  have hcfg : u.cfg = s.cfg := hprobe.cfg
  refine ⟨u, by rw [exec_scan_advanced hready hgen, hu], hbus, hcfg, hprobe.params, hprobe.busy, ?_⟩
  have hflat : u.flat = s.flat := congrArg (fun c : Cfg => c.transport == .flat) hcfg
  have hreg : u.winReg = if s.flat then s.winReg else zext64 p := hprobe.reg
  show (if u.flat then zext64 p else u.winReg) = _
  rw [hflat, hreg]
  cases s.flat <;> rfl

/-- At the opened stream all of it is still to be read. -/
theorem scanning_opened (hbusy : u.busy = true) :
    Scanning (u.openStream p) W W (u.openStream p) :=
  ⟨hbusy, List.suffix_refl W, by rw [cursorAt, Nat.sub_self]; rfl, rfl, rfl, rfl, rfl, rfl, rfl⟩

/-- The opened stream is what the reference device holds behind the pointer. -/
theorem streamIs_opened (hdev : s.onReference pages) (hbus : u.bus = s.bus)
    (hbase : (u.openStream p).streamBase = zext64 p) (hfits : W.length ≤ Config.eromLimitWords.toNat)
    (hwords : ∀ (k : Nat) (w : Word), W[k]? = some w → s.busAnswer (zext64 p + 4#64 * BitVec.ofNat 64 k) = w) :
    (u.openStream p).StreamIs W := by
  have hopened : (u.openStream p).onReference pages := by
    show u.onReference pages
    rw [State.onReference, hbus]
    exact hdev
  refine ⟨⟨pages, hopened⟩, hfits, fun k w hk => ?_⟩
  rw [hbase, busAnswer_onReference hopened, ← hwords k w hk, busAnswer_onReference hdev]
  exact congrArg (fun bus : Bus => referenceAnswer pages bus.mem _) hbus

end Start

/-- Settles O29: SCAN opens the stream, the rows are read one by one (`Scanning.table`), and END makes them the
table. -/
theorem scanRoundTrip : Obligations.ScanRoundTrip := by
  intro s rows p pages hready hgen hdev hport htable hremap halign hptr hwords
  obtain ⟨htable, hfits⟩ := Bool.and_eq_true_iff.mp htable
  obtain ⟨hrows, hroom⟩ := Bool.and_eq_true_iff.mp htable
  have hdecode : decodeCommand s.commands = .command .scan [] := by rw [hport]; rfl
  obtain ⟨u, hexec, hbus, hcfg, hparams, hbusy, hbase⟩ :=
    exec_scan_opensStream (s := { s with commands := [] }) hready hgen hdev halign hptr
  have hrun : Runs s (u.openStream p) := .of_step ((step_command hready.1 hdecode).trans hexec)
  have hstream := streamIs_opened (s := s) hdev hbus hbase (of_decide_eq_true hfits) hwords
  obtain ⟨v, hrun', hpos, hall⟩ := (scanning_opened hbusy).table hstream (hparams ▸ hcfg ▸ hremap) rfl
    (hparams ▸ hrows) (Nat.zero_add _ ▸ hparams ▸ of_decide_eq_true hroom)
  have hended := scanDone_succeeded hpos
  obtain ⟨n, hn⟩ := hrun.trans hrun'
  exact ⟨n, v.scanDone, hn, hended.busy, hended.status, hended.table.trans hall, hended.response⟩

end Sys2Proof.Machine

/-! PROOFS. Range errors of the per-core commands (42_core_table.md R249, 44_masked_access.md R310, 45_lifecycle.md
R341): the check that fails comes before the command's first event, so the command is its answer and nothing more. -/

namespace Sys2Proof.Machine

section RangeErrors

variable {s : State} {i off mask value : Word}

theorem row_eq_none_iff : s.row i = none ↔ s.table.length ≤ i.toNat := List.getElem?_eq_none_iff

@[simp] theorem usableWrapper_begin (i : Word) (s : State) : s.begin.usableWrapper i = s.usableWrapper i := rfl

/-- The first check of R341 is the index check of R249. -/
theorem usableWrapper_none_of_row (hrow : s.row i = none) : s.usableWrapper i = none := by
  simp only [State.usableWrapper, hrow]

theorem offsetOk_eq_false_iff : offsetOk off = false ↔ 0x1000 ≤ off.toNat ∨ off.toNat % 4 ≠ 0 := by
  rw [← Bool.not_eq_true, offsetOk_iff, Decidable.not_and_iff_or_not, Nat.not_lt]

/-- A command of a ready block whose body keeps the state it began in only answers. -/
theorem command_answers {body : State → List Word × State} {ws : List Word} (hready : s.ready)
    (hbody : body s.begin = (ws, s.begin)) : command body s = .next (s.answers ws) := by
  rw [command_ready _ s hready, hbody]
  rfl

/-! ## Queries and SWITCH_TO of no row -/

theorem exec_coreId_noRow (hready : s.ready) (hrow : s.row i = none) :
    exec (.coreId i) s = .next (s.answers (answer32 0 .rangeError)) :=
  command_answers hready (by simp only [row_begin, hrow])

theorem exec_coreRev_noRow (hready : s.ready) (hrow : s.row i = none) :
    exec (.coreRev i) s = .next (s.answers (answer32 0 .rangeError)) :=
  command_answers hready (by simp only [row_begin, hrow])

theorem exec_corePrimaryAddr_noRow (hready : s.ready) (hrow : s.row i = none) :
    exec (.corePrimaryAddr i) s = .next (s.answers (answer64 0 .rangeError)) :=
  command_answers hready (by simp only [row_begin, hrow])

theorem exec_corePrimarySize_noRow (hready : s.ready) (hrow : s.row i = none) :
    exec (.corePrimarySize i) s = .next (s.answers (answer64 0 .rangeError)) :=
  command_answers hready (by simp only [row_begin, hrow])

theorem exec_coreSecondaryAddr_noRow (hready : s.ready) (hrow : s.row i = none) :
    exec (.coreSecondaryAddr i) s = .next (s.answers (answerOpt64 none .rangeError)) :=
  command_answers hready (by simp only [row_begin, hrow])

theorem exec_coreSecondarySize_noRow (hready : s.ready) (hrow : s.row i = none) :
    exec (.coreSecondarySize i) s = .next (s.answers (answerOpt64 none .rangeError)) :=
  command_answers hready (by simp only [row_begin, hrow])

theorem exec_coreWrapperAddr_noRow (hready : s.ready) (hrow : s.row i = none) :
    exec (.coreWrapperAddr i) s = .next (s.answers (answerOpt64 none .rangeError)) :=
  command_answers hready (by simp only [row_begin, hrow])

theorem exec_switchTo_noRow (hready : s.ready) (hrow : s.row i = none) :
    exec (.switchTo i) s = .next (s.answers (answerOpt32 none .rangeError)) := by
  unfold exec execSwitchTo
  exact command_answers hready (by simp only [row_begin, hrow])

/-! ## ACCESS_REGISTER (R310) -/

/-- Check (a) of R310. -/
theorem exec_accessRegister_noRow (hready : s.ready) (hrow : s.row i = none) :
    exec (.accessRegister i off mask value) s = .next (s.answers (answer32 0 .rangeError)) := by
  unfold exec execAccessRegister
  exact command_answers hready (by simp only [row_begin, hrow])

/-- Checks (b) and (c) of R310; on an index out of range as well, check (a) has failed before them. -/
theorem exec_accessRegister_badOffset (hready : s.ready) (hoff : offsetOk off = false) :
    exec (.accessRegister i off mask value) s = .next (s.answers (answer32 0 .rangeError)) := by
  cases hrow : s.row i with
  | none => exact exec_accessRegister_noRow hready hrow
  | some d =>
    unfold exec execAccessRegister
    exact command_answers hready (by simp only [row_begin, hrow, hoff, Bool.false_eq_true, if_false])

/-! ## The lifecycle commands on a core whose wrapper cannot be reached (R341) -/

theorem lifecycleCommand_noWrapper (hready : s.ready) (hwrap : s.usableWrapper i = none)
    (run : Addr → State → Unit × State) :
    lifecycleCommand i run s = .next (s.answers (answerStatus .rangeError)) :=
  command_answers hready (by simp only [usableWrapper_begin, hwrap])

theorem flagsCommand_noWrapper (hready : s.ready) (hwrap : s.usableWrapper i = none) (x : Addr) (mask value : Word) :
    flagsCommand x i mask value s = .next (s.answers (answer32 0 .rangeError)) :=
  command_answers hready (by simp only [usableWrapper_begin, hwrap])

theorem exec_isUp_noWrapper (hready : s.ready) (hwrap : s.usableWrapper i = none) :
    exec (.isUp i) s = .next (s.answers (answer32 0 .rangeError)) := by
  unfold exec execIsUp
  exact command_answers hready (by simp only [usableWrapper_begin, hwrap])

end RangeErrors

/-- Settles O31: an index not below COUNT names no row, and so no wrapper; each command by its lemma. -/
theorem indexOutOfRange : Obligations.IndexOutOfRange := by
  refine ⟨fun s i off mask value hready hoff =>
    exec_accessRegister_badOffset hready (offsetOk_eq_false_iff.mpr hoff), fun s i hready hcount => ?_⟩
  have hrow : s.row i = none := row_eq_none_iff.mpr hcount
  have hwrap : s.usableWrapper i = none := usableWrapper_none_of_row hrow
  exact ⟨exec_coreId_noRow hready hrow, exec_coreRev_noRow hready hrow, exec_corePrimaryAddr_noRow hready hrow,
    exec_corePrimarySize_noRow hready hrow, exec_coreSecondaryAddr_noRow hready hrow,
    exec_coreSecondarySize_noRow hready hrow, exec_coreWrapperAddr_noRow hready hrow,
    exec_switchTo_noRow hready hrow, fun _ _ _ => exec_accessRegister_noRow hready hrow,
    fun _ => lifecycleCommand_noWrapper hready hwrap _, fun _ _ => lifecycleCommand_noWrapper hready hwrap _,
    exec_isUp_noWrapper hready hwrap, flagsCommand_noWrapper hready hwrap _,
    flagsCommand_noWrapper hready hwrap _⟩

end Sys2Proof.Machine

/-! PROOFS. SWITCH_TO and CURRENT_FOCUS as commands (43_focus.md R281, R282, R286): the whole next state of each. On
Flat a focus switch is `focusFlat_eq`, on a windowed transport `switchTo_windowed`. -/

namespace Sys2Proof.Machine

section FocusSwitch

variable {s : State} {i : Word} {d : CoreDescriptor}

theorem mapOnce_eq_ite (cached : Option Addr) (base : Addr) :
    mapOnce cached base = if cached = none then [.map base 0x1000#64] else [] := by
  cases cached <;> rfl

theorem cacheOnce_eq_ite (cache : List (Option Addr)) (k : Nat) (base : Addr) :
    cacheOnce cache k base = if cacheGet cache k = none then cacheSet cache k base else cache := by
  unfold cacheOnce
  cases cacheGet cache k <;> rfl

/-! ## What a Map made on first use changes (R43) -/

theorem mapCore_eq (i : Word) (base : Addr) (s : State) : s.mapCore i base = { s with
    trace := s.trace ++ mapOnce (cacheGet s.mapReg i.toNat) base
    mapReg := cacheOnce s.mapReg i.toNat base } := by
  unfold State.mapCore mapOnce cacheOnce
  cases cacheGet s.mapReg i.toNat with
  | none => rfl
  | some a => simp only [List.append_nil]

theorem mapWrapper_eq (i : Word) (wb : Addr) (s : State) : s.mapWrapper i wb = { s with
    trace := s.trace ++ mapOnce (cacheGet s.mapWrap i.toNat) wb
    mapWrap := cacheOnce s.mapWrap i.toNat wb } := by
  unfold State.mapWrapper mapOnce cacheOnce
  cases cacheGet s.mapWrap i.toNat with
  | none => rfl
  | some a => simp only [List.append_nil]

/-- SWITCH_TO on Flat changes the trace, the caches and the focus, and nothing else (R281, R284). -/
theorem focusFlat_eq (i : Word) (d : CoreDescriptor) (s : State) : s.focusFlat i d = { s with
    trace := s.trace ++ mapOnce (cacheGet s.mapReg i.toNat) d.primaryAddr ++
      d.wrapperAddr.elim [] (mapOnce (cacheGet s.mapWrap i.toNat))
    mapReg := cacheOnce s.mapReg i.toNat d.primaryAddr
    mapWrap := d.wrapperAddr.elim s.mapWrap (cacheOnce s.mapWrap i.toNat)
    focus := { idx := some i
               reg := some (.mapped ((cacheGet s.mapReg i.toNat).getD d.primaryAddr))
               wrap := d.wrapperAddr.map fun wb => .mapped ((cacheGet s.mapWrap i.toNat).getD wb) } } := by
  rw [← focusFlat_focus i d s]
  unfold State.focusFlat
  cases d.wrapperAddr with
  | none => simp only [mapCore_eq, Option.elim_none, List.append_nil]
  | some wb => simp only [mapCore_eq, mapWrapper_eq, Option.elim_some]

/-! ## The two commands -/

/-- SWITCH_TO of a row answers the index as the handle (R282). -/
theorem exec_switchTo_row (hready : s.ready) (hrow : s.row i = some d) :
    exec (.switchTo i) s = .next ((s.begin.switchTo i).respond [1#32, i, 0#32]) := by
  simp only [exec, execSwitchTo, command_ready _ s hready, row_begin, hrow]
  rfl

theorem exec_currentFocus (hready : s.ready) :
    exec .currentFocus s = .next (s.answers (answerOpt32 s.focus.idx .ok)) := by
  simp only [exec, execCurrentFocus, command_query _ hready, begin_focus]

end FocusSwitch

/-- Settles O34: SWITCH_TO by the whole state a switch leaves on each transport, CURRENT_FOCUS as a query. -/
theorem focusCommands : Obligations.FocusCommands := by
  refine ⟨fun s i d hready hrow => ⟨fun hflat => ?_, fun hwindowed => ?_⟩, fun s hready => ?_⟩
  · rw [exec_switchTo_row hready hrow, switchTo_flat (s := s.begin) hrow ((flat_iff s).mpr hflat), focusFlat_eq]
    cases d.wrapperAddr with
    | none => simp only [Option.elim_none, mapOnce_eq_ite, cacheOnce_eq_ite]; rfl
    | some wb => simp only [Option.elim_some, mapOnce_eq_ite, cacheOnce_eq_ite]; rfl
  · have hf : s.begin.flat = false := by rw [← Bool.not_eq_true, flat_iff]; exact hwindowed
    rw [exec_switchTo_row hready hrow, switchTo_windowed (s := s.begin) hrow hf]
    rfl
  · rw [exec_currentFocus hready]
    cases s.focus.idx <;> rfl

end Sys2Proof.Machine

/-! PROOFS. ACCESS_REGISTER on the slow path (44_masked_access.md R313 to R315): the masked operation inside a critical
section, and what any critical section leaves of focus, windows and mask (`State.AfterSection`). -/

namespace Sys2Proof.Machine

section SlowPath

variable {s u : State} {i off mask value : Word} {d : CoreDescriptor} {es : List Event} {lg : List LogEntry}

/-- On a windowed transport the fast-path cores are the lowest index of each `coreId` that has an entry (R314). -/
theorem fastPathCore_iff (hflat : s.flat = false) (hrow : s.row i = some d) : s.fastPathCore i = true ↔
    (∃ e ∈ s.cfg.fastPath, e.1 = d.coreId.setWidth 32) ∧
      ∀ (k : Nat) (c : CoreDescriptor), k < i.toNat → s.table[k]? = some c → c.coreId ≠ d.coreId := by
  refine ⟨fun hfast => ?_, fun ⟨hentry, hlowest⟩ => fastPathCore_of_lowest hflat hrow hentry hlowest⟩
  simp only [State.fastPathCore, hrow, hflat, Bool.not_false, Bool.true_and, Bool.and_eq_true, List.any_eq_true,
    beq_iff_eq, List.findIdx?_eq_some_iff_getElem] at hfast
  obtain ⟨hentry, _, -, hlowest⟩ := hfast
  refine ⟨hentry, fun k c hk hc => ?_⟩
  obtain ⟨-, rfl⟩ := List.getElem?_eq_some_iff.mp hc
  exact hlowest k hk

/-- A command that ends with caches, focus and mask as a critical section leaves them has left the windows at the
last bases of its own events. -/
theorem Acts.afterSection (h : Acts s.begin u es lg) (hmapReg : u.mapReg = s.mapReg) (hmapWrap : u.mapWrap = s.mapWrap)
    (hirq : u.irqSaved = none) (hidx : u.focus.idx = s.focusAfter i) (ws : List Word) :
    s.AfterSection i (u.respond ws) := by
  have hevents : (u.respond ws).commandTrace = es := commandTrace_eq (s := s) h.trace h.traceMark
  refine ⟨hmapReg, hmapWrap, hidx, ?_, ?_, hirq⟩
  · rw [hevents]; exact h.winReg
  · rw [hevents]; exact h.winWrap

/-- The masked operation inside the critical section: REG stands at the core, so it is at the core's own address
(R313, R315). -/
theorem slowAccess_spec (hflat : s.flat = false) (hrow : s.row i = some d) (hvalid : s.focusValid) :
    ∃ es, Acts s (s.slowAccess i off mask value).2 (s.enterEvents i ++ es ++ s.leaveEvents i) [] ∧
      IsRmw .plain (d.primaryAddr + zext64 off) mask value es (s.slowAccess i off mask value).1 ∧
      (s.slowAccess i off mask value).2.mapReg = s.mapReg ∧ (s.slowAccess i off mask value).2.mapWrap = s.mapWrap ∧
      (s.slowAccess i off mask value).2.irqSaved = none ∧
      (s.slowAccess i off mask value).2.focus.idx = s.focusAfter i := by
  have hreg : (s.irqMask.2.switchTo i).winReg = d.primaryAddr := by
    rw [switchTo_windowed (s := s.irqMask.2) hrow hflat]
  obtain ⟨es, hbody, hrmw⟩ := rmw_body .plain ((s.irqMask.2.switchTo i).winReg + zext64 off) mask value
    (s.irqMask.2.switchTo i)
  obtain ⟨hacts, hresult, hmapReg, hmapWrap, hirq, hidx⟩ :=
    withFocus_windowed (body := fun t => t.rmw .plain (t.winReg + zext64 off) mask value) hflat hbody
  rw [← hresult, hreg] at hrmw
  exact ⟨es, hacts, hrmw, hmapReg, hmapWrap, hirq, hidx hvalid ⟨d, hrow⟩⟩

/-- ACCESS_REGISTER of a core that is no fast-path core takes the slow path (R313). -/
theorem exec_accessRegister_slow (hready : s.ready) (hrow : s.row i = some d) (hoff : offsetOk off = true)
    (hflat : s.flat = false) (hfast : s.fastPathCore i = false) :
    exec (.accessRegister i off mask value) s = .next ((s.begin.slowAccess i off mask value).2.respond
      (answer32 (s.begin.slowAccess i off mask value).1 .ok)) := by
  rw [exec_accessRegister_ready hready hrow hoff, access_slow (s := s.begin) hflat hfast]
  rfl

end SlowPath

/-- Settles O38: a core that does not meet R314 is accessed on the slow path (`exec_accessRegister_slow`), whose events
are those of `slowAccess_spec`; the switches around the masked operation write nothing. -/
theorem accessSlow : Obligations.AccessSlow := by
  intro s i off mask value d hready hwindowed hrow hlt hal hvalid hnot
  have hflat : s.flat = false := by rw [← Bool.not_eq_true, flat_iff]; exact hwindowed
  have hfast : s.fastPathCore i = false := by rw [← Bool.not_eq_true, fastPathCore_iff hflat hrow]; exact hnot
  have hoff : offsetOk off = true := offsetOk_iff.mpr ⟨hlt, hal⟩
  obtain ⟨es, hacts, hrmw, hmapReg, hmapWrap, hirq, hidx⟩ :=
    slowAccess_spec (s := s.begin) (off := off) (mask := mask) (value := value) hflat hrow hvalid
  have hmem : (s.begin.slowAccess i off mask value).2.bus.mem = replay es s.bus.mem :=
    hacts.mem.trans (replay_between (writeFree_enterEvents s i) (writeFree_leaveEvents s i) es _)
  refine ⟨_, es, _, exec_accessRegister_slow hready hrow hoff hflat hfast, rfl, hrmw, ?_,
    hacts.log.trans (List.append_nil _), hacts.sameSession _, hacts.afterSection hmapReg hmapWrap hirq hidx _,
    hrmw.sameMemoryOutside hmem, fun hzero => ?_⟩
  · calc (s.begin.slowAccess i off mask value).2.trace
        = s.trace ++ (s.enterEvents i ++ es ++ s.leaveEvents i) := hacts.trace
      _ = s.trace ++ s.enterEvents i ++ es ++ s.leaveEvents i := by simp only [List.append_assoc]
  · exact hmem.trans (replay_of_writeFree (hrmw.writeFree hzero) _)

end Sys2Proof.Machine

/-! PROOFS. ACCESS_REGISTER as one command (44_masked_access.md R310 to R318): its next state on Flat and what any next
state of it is (`exec_accessRegister_next`), the focus it leaves (`access_idx`), and the WinSets of REG on the slow
path. -/

namespace Sys2Proof.Machine

section MaskedAccess

variable {s t u v : State} {i p off mask value : Word} {d dp : CoreDescriptor} {es : List Event} {lg : List LogEntry}

/-! ## On Flat (R312) -/

/-- ACCESS_REGISTER on Flat is the masked operation at the core's own address, mapped first if it is not. -/
theorem exec_accessRegister_flat (hready : s.ready) (hrow : s.row i = some d) (hoff : offsetOk off = true)
    (hflat : s.flat = true) :
    exec (.accessRegister i off mask value) s = .next
      (((s.begin.mapCore i d.primaryAddr).rmw .plain (d.primaryAddr + zext64 off) mask value).2.respond
        (answer32 ((s.begin.mapCore i d.primaryAddr).rmw .plain (d.primaryAddr + zext64 off) mask value).1 .ok)) := by
  rw [exec_accessRegister_ready hready hrow hoff, access_flat (s := s.begin) hflat]

/-- A Map made on first use does not look at FocusState. -/
theorem mapCore_withFocusState (i : Word) (base : Addr) (s : State) (f : Focus) :
    State.mapCore i base { s with focus := f } = { s.mapCore i base with focus := f } := by
  rw [mapCore_eq, mapCore_eq]

/-- A command that leaves focus, windows and mask alone, and then does the work of a body, has left them alone. -/
theorem State.SameFocus.respond_body (h : s.begin.SameFocus u) (hbody : Body u v es lg) (ws : List Word) :
    s.SameFocus (v.respond ws) :=
  ⟨hbody.focus.trans h.focus, hbody.still.1.trans h.winReg, hbody.still.2.trans h.winWrap,
    hbody.irqSaved.trans h.irqSaved⟩

/-! ## Any next state (R310) -/

/-- The events of a command's body are the command's. -/
theorem Acts.commandTrace_respond (h : Acts s.begin u es lg) (ws : List Word) : (u.respond ws).commandTrace = es :=
  commandTrace_eq (s := s) h.trace h.traceMark

theorem commandTrace_answers (s : State) (ws : List Word) : (s.answers ws).commandTrace = [] :=
  (Acts.refl s.begin).commandTrace_respond ws

/-- ACCESS_REGISTER answers the access of a row at an offset in range, or RangeError with nothing done. -/
theorem exec_accessRegister_next (h : exec (.accessRegister i off mask value) s = .next t) :
    s.ready ∧ ((∃ d, s.row i = some d ∧ offsetOk off = true ∧
        t = (s.begin.access i d off mask value).2.respond (answer32 (s.begin.access i d off mask value).1 .ok)) ∨
      t = s.answers (answer32 0 .rangeError)) := by
  have hready : s.ready := (command_next (show execAccessRegister i off mask value s = .next t from h)).1
  refine ⟨hready, ?_⟩
  cases hrow : s.row i with
  | none =>
    rw [exec_accessRegister_noRow hready hrow] at h
    exact .inr (Host.Outcome.next.inj h).symm
  | some d =>
    cases hoff : offsetOk off with
    | false =>
      rw [exec_accessRegister_badOffset hready hoff] at h
      exact .inr (Host.Outcome.next.inj h).symm
    | true =>
      rw [exec_accessRegister_ready hready hrow hoff] at h
      exact .inl ⟨d, rfl, rfl, (Host.Outcome.next.inj h).symm⟩

/-- An access with mask and value 0 writes nothing, whatever its path (R316). -/
theorem access_writeFree (hrow : s.row i = some d) (hzero : mask ||| value = 0#32) :
    ∃ es, Acts s (s.access i d off mask value).2 es [] ∧ WriteFree es := by
  obtain ⟨before, es, after, _, _, hacts, hbefore, hafter, hrmw⟩ := access_acts hrow off mask value
  exact ⟨_, hacts, by simp only [writeFree_append, hbefore, hrmw.writeFree hzero, hafter, and_self]⟩

/-! ## The focus it leaves (R318) -/

/-- The slow path is the one R313 gives: a windowed transport and a core that is no fast-path core. -/
theorem slowPath_iff (hrow : s.row i = some d) : s.flat = false ∧ s.fastPathCore i = false ↔
    s.cfg.transport ≠ .flat ∧ ¬ ((∃ e ∈ s.cfg.fastPath, e.1 = d.coreId.setWidth 32) ∧
      ∀ (k : Nat) (c : CoreDescriptor), k < i.toNat → s.table[k]? = some c → c.coreId ≠ d.coreId) := by
  have hwindowed : s.flat = false ↔ s.cfg.transport ≠ .flat := by rw [← Bool.not_eq_true, flat_iff]
  rw [← hwindowed]
  refine and_congr_right fun hflat => ?_
  rw [← fastPathCore_iff hflat hrow, Bool.not_eq_true]

theorem focusAfter_eq (s : State) (i : Word) :
    s.focusAfter i = if s.focus.idx = none then some i else s.focus.idx := by
  unfold State.focusAfter
  cases s.focus.idx <;> rfl

/-- Only the slow path looks at the focus, and it leaves one where there was none. -/
theorem access_idx (hrow : s.row i = some d) (hvalid : s.focusValid) :
    (s.access i d off mask value).2.focus.idx =
      if s.focus.idx = none ∧ s.flat = false ∧ s.fastPathCore i = false then some i else s.focus.idx := by
  cases hflat : s.flat with
  | true =>
    obtain ⟨-, -, -, hsame⟩ := mapCore_acts i d.primaryAddr s
    obtain ⟨es, hbody, -⟩ := rmw_body .plain (d.primaryAddr + zext64 off) mask value (s.mapCore i d.primaryAddr)
    rw [access_flat hflat, hbody.focus, hsame.focus]
    simp
  | false =>
    cases hfast : s.fastPathCore i with
    | true =>
      obtain ⟨es, hbody, -⟩ := rmw_body .fast (d.primaryAddr + zext64 off) mask value s
      rw [access_fast hflat hfast, hbody.focus]
      simp
    | false =>
      obtain ⟨es, -, -, -, -, -, hidx⟩ :=
        slowAccess_spec (off := off) (mask := mask) (value := value) hflat hrow hvalid
      have hrun : (s.access i d off mask value).2.focus.idx = s.focusAfter i := by
        rw [access_slow hflat hfast]
        exact hidx
      simpa [focusAfter_eq] using hrun

/-! ## The WinSets of REG (R317) -/

theorem regBase_switchEvents (hrow : s.row i = some d) :
    (s.switchEvents i).filterMap Event.regBase = [d.primaryAddr] := by
  unfold State.switchEvents
  cases hwrap : d.wrapperAddr with
  | none => simp [hrow, hwrap, Event.regBase]
  | some wb => by_cases hcount : s.cfg.windowCount = 2 <;> simp [hrow, hwrap, hcount, Event.regBase]

theorem regBase_enterEvents (hrow : s.row i = some d) :
    (s.enterEvents i).filterMap Event.regBase = [d.primaryAddr] := by
  rw [State.enterEvents, List.filterMap_cons_none rfl, regBase_switchEvents hrow]

/-- Back to another core: REG is set to it. -/
theorem regBase_leaveEvents_other (hidx : s.focus.idx = some p) (hne : p ≠ i) (hrow : s.row p = some dp) :
    (s.leaveEvents i).filterMap Event.regBase = [dp.primaryAddr] := by
  simp [State.leaveEvents, hidx, hne, regBase_switchEvents hrow, Event.regBase]

/-- From a core to itself there is no switch back. -/
theorem regBase_leaveEvents_own (hidx : s.focus.idx = some i) :
    (s.leaveEvents i).filterMap Event.regBase = [] := by
  simp [State.leaveEvents, hidx, Event.regBase]

theorem IsRmw.regBase {path : AccessPath} {pa : Addr} {result : Word} (h : IsRmw path pa mask value es result) :
    es.filterMap Event.regBase = [] := by
  rcases h with ⟨-, rfl⟩ | ⟨-, w, rfl⟩ <;> rfl

theorem focusValid_of_row (hidx : s.focus.idx = some p) (hrow : s.row p = some dp) : s.focusValid := by
  intro q hq
  obtain rfl : p = q := Option.some.inj (hidx.symm.trans hq)
  exact (row_some_iff s p).mp ⟨dp, hrow⟩

/-- A slow access from the focus of a row sets REG to the core, then to what the switch back sets it to; the focus ends
as it began. -/
theorem exec_accessRegister_slow_regBases (hrow : s.row i = some d) (hoff : offsetOk off = true)
    (hflat : s.flat = false) (hfast : s.fastPathCore i = false) (hidx : s.focus.idx = some p)
    (hfocus : s.row p = some dp) (h : exec (.accessRegister i off mask value) s = .next t) :
    t.commandTrace.filterMap Event.regBase = d.primaryAddr :: (s.leaveEvents i).filterMap Event.regBase ∧
      t.focus.idx = some p := by
  obtain ⟨hready, -⟩ := exec_accessRegister_next h
  rw [exec_accessRegister_slow hready hrow hoff hflat hfast] at h
  obtain rfl := Host.Outcome.next.inj h
  obtain ⟨es, hacts, hrmw, -, -, -, hafter⟩ := slowAccess_spec (s := s.begin) (off := off) (mask := mask)
    (value := value) hflat hrow (focusValid_of_row (s := s) hidx hfocus)
  refine ⟨?_, ?_⟩
  · rw [hacts.commandTrace_respond, List.filterMap_append, List.filterMap_append, hrmw.regBase]
    exact congrArg (· ++ [] ++ (s.leaveEvents i).filterMap Event.regBase) (regBase_enterEvents hrow)
  · rw [focusAfter_eq, begin_focus, hidx] at hafter
    exact hafter

end MaskedAccess

/-- Settles O36: on Flat the command is a Map on first use, then the masked operation (`exec_accessRegister_flat`). -/
theorem accessFlat : Obligations.AccessFlat := by
  intro s i off mask value d hready htransport hrow hlt hal
  have hflat : s.flat = true := (flat_iff s).mpr htransport
  have hoff : offsetOk off = true := offsetOk_iff.mpr ⟨hlt, hal⟩
  obtain ⟨hmap, hmapReg, hmapWrap, hsame⟩ := mapCore_acts i d.primaryAddr s.begin
  obtain ⟨es, hbody, hrmw⟩ := rmw_body .plain (d.primaryAddr + zext64 off) mask value
    (s.begin.mapCore i d.primaryAddr)
  have hacts := hmap.trans hbody.toActs
  have hmem := hbody.mem
  rw [mapCore_bus] at hmem
  refine ⟨_, es, _, exec_accessRegister_flat hready hrow hoff hflat, rfl, hrmw, ?_, ?_, hbody.mapWrap.trans hmapWrap,
    hacts.log.trans (List.append_nil _), hacts.sameSession _, hsame.respond_body hbody _,
    hrmw.sameMemoryOutside hmem, fun hzero => ?_, fun f => ?_⟩
  · rw [← mapOnce_eq_ite, List.append_assoc]
    exact hacts.trace
  · rw [← cacheOnce_eq_ite]
    exact hbody.mapReg.trans hmapReg
  · exact hmem.trans (replay_of_writeFree (hrmw.writeFree hzero) _)
  · have hrun := rmw_withFocusState .plain (d.primaryAddr + zext64 off) mask value
      (s.begin.mapCore i d.primaryAddr) f
    rw [← mapCore_withFocusState] at hrun
    exact (exec_accessRegister_flat (s := { s with focus := f }) hready hrow hoff hflat).trans
      (congrArg (fun r : Word × State => Host.Outcome.next (r.2.respond (answer32 r.1 .ok))) hrun)

/-- Settles O39: a RangeError has no event, and the events of an access are those of `access_writeFree`. -/
theorem getWritesNothing : Obligations.GetWritesNothing := by
  intro s i off t h
  obtain ⟨-, ⟨d, hrow, -, rfl⟩ | rfl⟩ := exec_accessRegister_next h
  · obtain ⟨es, hacts, hfree⟩ := access_writeFree (s := s.begin) (off := off) hrow BitVec.or_self
    refine ⟨?_, hacts.mem.trans (replay_of_writeFree hfree _)⟩
    rw [hacts.commandTrace_respond]
    exact hfree
  · refine ⟨?_, rfl⟩
    rw [commandTrace_answers]
    exact writeFree_nil

/-- Settles O40: on the slow path REG is set as `exec_accessRegister_slow_regBases` says; the fast path is the masked
operation alone. -/
theorem scenarioE : Obligations.ScenarioE := by
  intro s i off mask value d t hwindowed hrow hlt hal h fast
  have hflat : s.flat = false := by rw [← Bool.not_eq_true, flat_iff]; exact hwindowed
  have hoff : offsetOk off = true := offsetOk_iff.mpr ⟨hlt, hal⟩
  have hslow : ¬ fast → s.fastPathCore i = false := fun hnot => ((slowPath_iff hrow).mpr ⟨hwindowed, hnot⟩).2
  refine ⟨fun p dp hnot hidx hfocus hne => ?_, fun hnot hidx => ?_, fun hfast => ?_⟩
  · rw [← regBase_leaveEvents_other hidx hne hfocus]
    exact exec_accessRegister_slow_regBases hrow hoff hflat (hslow hnot) hidx hfocus h
  · rw [← regBase_leaveEvents_own hidx]
    exact exec_accessRegister_slow_regBases hrow hoff hflat (hslow hnot) hidx hrow h
  · obtain ⟨hready, -⟩ := exec_accessRegister_next h
    rw [exec_accessRegister_fast hready hrow hoff hflat ((fastPathCore_iff hflat hrow).mpr hfast)] at h
    obtain rfl := Host.Outcome.next.inj h
    obtain ⟨es, hbody, hrmw⟩ := rmw_body .fast (d.primaryAddr + zext64 off) mask value s.begin
    refine ⟨?_, hbody.focus⟩
    rw [hbody.toActs.commandTrace_respond]
    exact hrmw.regBase

/-- Settles O41: what is not a RangeError is an access of a row, and the focus it leaves is that of `access_idx`. -/
theorem focusPreserved : Obligations.FocusPreserved := by
  intro s i off mask value t hvalid h hstatus
  obtain ⟨-, ⟨d, hrow, -, rfl⟩ | rfl⟩ := exec_accessRegister_next h
  · refine ⟨d, hrow, ?_⟩
    intro fast exception
    have hidx := access_idx (s := s.begin) (off := off) (mask := mask) (value := value) hrow hvalid
    have hexc : exception ↔ s.focus.idx = none ∧ s.flat = false ∧ s.fastPathCore i = false :=
      and_congr_right fun _ => (slowPath_iff hrow).symm
    rw [hexc]
    exact ⟨fun he => hidx.trans (if_pos he), fun hn => hidx.trans (if_neg hn)⟩
  · exact absurd rfl hstatus

end Sys2Proof.Machine

/-! PROOFS. The lifecycle commands on a core whose wrapper can be reached (45_lifecycle.md R341 to R356). Each is a body
between the wrapper prologue and epilogue; what the rest of such a command leaves is said once
(`State.RanOnWrapper`), what its body emits by `IsDisable`, `IsReset`, `IsUpReads` and `IsRmw`. -/

namespace Sys2Proof.Machine

/-! ## Events that write inside given words -/

/-- If this event is a bus write, it is to one of these addresses. -/
def Event.WritesIn (pas : List Addr) (e : Event) : Prop := ∀ path pa v, e = .memWrite path pa v → pa ∈ pas

/-- Every bus write of these events is to one of these addresses. -/
def WritesWithin (pas : List Addr) (es : List Event) : Prop := ∀ e ∈ es, e.WritesIn pas

section Writes

variable {pas : List Addr}

@[simp] theorem writesIn_memRead (path : AccessPath) (pa : Addr) (v : Word) :
    (Event.memRead path pa v).WritesIn pas := nofun

@[simp] theorem writesIn_delay (n : Nat) : (Event.delay n).WritesIn pas := nofun

@[simp] theorem writesIn_memWrite (path : AccessPath) (pa : Addr) (v : Word) :
    (Event.memWrite path pa v).WritesIn pas ↔ pa ∈ pas :=
  ⟨fun h => h path pa v rfl, fun h _ _ _ he => by cases he; exact h⟩

@[simp] theorem writesWithin_nil : WritesWithin pas [] := nofun

@[simp] theorem writesWithin_cons (e : Event) (es : List Event) :
    WritesWithin pas (e :: es) ↔ e.WritesIn pas ∧ WritesWithin pas es := List.forall_mem_cons

@[simp] theorem writesWithin_append (a b : List Event) :
    WritesWithin pas (a ++ b) ↔ WritesWithin pas a ∧ WritesWithin pas b := List.forall_mem_append

theorem WriteFree.writesWithin {es : List Event} (h : WriteFree es) : WritesWithin pas es := by
  rintro _ he path pa v rfl
  cases h _ he

variable {p : Params} {wb : Addr} {es : List Event} {lg : List LogEntry}

theorem IsDisable.writesWithin {b : Word} (h : IsDisable p wb b es lg) :
    WritesWithin [wb + Config.resetCtrl, wb + Config.ioCtrl] es := by
  rcases h with ⟨r, -, rfl, -⟩ | ⟨r, x, y, wait, tolerated, -, hwait, rfl, -⟩
  · simp
  · simp [hwait.writeFree.writesWithin]

/-- The self-clear loop writes `RESETCTRL` alone (R346). -/
theorem IsClearLoop.writesWithin {n : Nat} {cleared : Bool} (h : IsClearLoop p wb n es lg cleared)
    (hpa : wb + Config.resetCtrl ∈ pas) : WritesWithin pas es := by
  induction n generalizing es lg with
  | zero =>
    obtain ⟨rfl, -⟩ := h
    exact writesWithin_nil
  | succ n ih =>
    obtain ⟨wait, tolerated, v, hwait, rest, restLg, rfl, -, hcase⟩ := h
    have hrest : WritesWithin pas rest := by
      rcases hcase with ⟨-, rfl, -⟩ | ⟨-, hloop⟩
      · exact writesWithin_nil
      · exact ih hloop
    simp [(IsWait.writeFree hwait).writesWithin, hpa, hrest]

theorem IsReset.writesWithin {io ro : Word} (h : IsReset p wb io ro es lg) :
    WritesWithin [wb + Config.resetCtrl, wb + Config.ioCtrl] es := by
  obtain ⟨w1, w2, w3, loop, t1, t2, t3, cleared, loopLg, y, h1, h2, h3, hloop, rfl, -⟩ := h
  simp [h1.writeFree.writesWithin, (IsWait.writeFree h2).writesWithin, (IsWait.writeFree h3).writesWithin,
    hloop.writesWithin List.mem_cons_self]

theorem IsRmw.writesWithin {path : AccessPath} {pa : Addr} {mask value result : Word}
    (h : IsRmw path pa mask value es result) : WritesWithin [pa] es := by
  rcases h with ⟨-, rfl⟩ | ⟨-, w, rfl⟩ <;> simp

end Writes

/-! ## A body between the wrapper prologue and epilogue (R341) -/

/-- `t` is what a command on core i leaves of `s`, its body having emitted `es` and logged `lg` at the wrapper at
`wb`. -/
structure State.RanOnWrapper (s : State) (i : Word) (wb : Addr) (es : List Event) (lg : List LogEntry) (t : State) :
    Prop where
  acts : ∃ u ws, Acts s.begin u (s.wrapperEnter i wb ++ es ++ s.wrapperLeave i) lg ∧ t = u.respond ws
  after : s.AfterWrapper i wb t

namespace State.RanOnWrapper

variable {s t : State} {i : Word} {d : CoreDescriptor} {wb : Addr} {es : List Event} {lg : List LogEntry}

theorem trace_eq (h : s.RanOnWrapper i wb es lg t) :
    t.trace = s.trace ++ s.wrapperEnter i wb ++ es ++ s.wrapperLeave i := by
  obtain ⟨⟨u, ws, ha, rfl⟩, -⟩ := h
  calc u.trace = s.trace ++ (s.wrapperEnter i wb ++ es ++ s.wrapperLeave i) := ha.trace
    _ = s.trace ++ s.wrapperEnter i wb ++ es ++ s.wrapperLeave i := by simp only [List.append_assoc]

theorem log_eq (h : s.RanOnWrapper i wb es lg t) : t.log = s.log ++ lg := by
  obtain ⟨⟨u, ws, ha, rfl⟩, -⟩ := h
  exact ha.log

theorem commandTrace_eq (h : s.RanOnWrapper i wb es lg t) :
    t.commandTrace = s.wrapperEnter i wb ++ es ++ s.wrapperLeave i := by
  obtain ⟨⟨u, ws, ha, rfl⟩, -⟩ := h
  exact ha.commandTrace_respond ws

/-- Prologue and epilogue write nothing. -/
theorem mem_eq (h : s.RanOnWrapper i wb es lg t) : t.bus.mem = replay es s.bus.mem := by
  obtain ⟨⟨u, ws, ha, rfl⟩, -⟩ := h
  exact ha.mem.trans (replay_between (writeFree_wrapperEnter s i wb) (writeFree_wrapperLeave s i) es _)

theorem mem_of_writeFree (h : s.RanOnWrapper i wb es lg t) (hes : WriteFree es) : t.bus.mem = s.bus.mem :=
  h.mem_eq.trans (replay_of_writeFree hes _)

theorem sameMemoryOutside (h : s.RanOnWrapper i wb es lg t) {pas : List Addr} (hes : WritesWithin pas es) :
    s.SameMemoryOutside pas t := by
  intro a ha
  rw [h.mem_eq]
  exact readByte_replay_other es _ fun path pa v hmem => ha pa (hes _ hmem path pa v rfl)

/-- A body accounted for between the prologue and the epilogue, with what `withWrapper_spec` says of focus, caches and
mask. -/
theorem of_acts {u : State} (ha : Acts s.begin u (s.wrapperEnter i wb ++ es ++ s.wrapperLeave i) lg)
    (hflat : s.flat = true → s.begin.SameFocus u ∧ u.mapReg = s.mapReg ∧
      u.mapWrap = cacheOnce s.mapWrap i.toNat wb)
    (hwindowed : s.flat = false → u.mapReg = s.mapReg ∧ u.mapWrap = s.mapWrap ∧ u.irqSaved = none ∧
      u.focus.idx = s.focusAfter i) (ws : List Word) : s.RanOnWrapper i wb es lg (u.respond ws) where
  acts := ⟨u, ws, ha, rfl⟩
  after :=
    { session := ha.sameSession ws
      flat := fun hf => by
        obtain ⟨hsame, hmapReg, hmapWrap⟩ := hflat hf
        exact ⟨⟨hsame.focus, hsame.winReg, hsame.winWrap, hsame.irqSaved⟩, hmapReg, hmapWrap⟩
      windowed := fun hf => by
        obtain ⟨hmapReg, hmapWrap, hirq, hidx⟩ := hwindowed hf
        exact ha.afterSection hmapReg hmapWrap hirq hidx ws }

end State.RanOnWrapper

section Commands

variable {s : State} {i : Word} {d : CoreDescriptor} {wb : Addr}

/-- WithWrapper, as the body of a command. -/
theorem withWrapper_ran {α : Type} {body : State → α × State} {Q : List Event → List LogEntry → α → Prop}
    (hr : s.WrapperReachable i d wb)
    (hbody : ∀ u : State, u.params = s.params → (∀ x, u.wrapperPa wb x = wb + x) →
      ∃ es lg, Body u (body u).2 es lg ∧ Q es lg (body u).1) :
    ∃ es lg, Q es lg (s.begin.withWrapper i wb body).1 ∧
      ∀ ws, s.RanOnWrapper i wb es lg ((s.begin.withWrapper i wb body).2.respond ws) := by
  obtain ⟨es, lg, ha, hq, hflat, hwindowed⟩ := withWrapper_spec hr.begin hbody
  exact ⟨es, lg, hq, .of_acts ha hflat hwindowed⟩

/-- WithWrapper, as the body of a RESET (R58): that the core is Resetting meanwhile is not seen afterwards. -/
theorem whileResetting_ran {body : State → Unit × State} {Q : List Event → List LogEntry → Prop}
    (hr : s.WrapperReachable i d wb)
    (hbody : ∀ u : State, u.params = s.params → (∀ x, u.wrapperPa wb x = wb + x) →
      ∃ es lg, Body u (body u).2 es lg ∧ Q es lg) :
    ∃ es lg, Q es lg ∧ ∀ ws, s.RanOnWrapper i wb es lg
      ((s.begin.whileResetting i fun u => u.withWrapper i wb body).2.respond ws) := by
  obtain ⟨es, lg, ha, hq, hflat, hwindowed⟩ :=
    withWrapper_spec (Q := fun es lg _ => Q es lg) hr.begin.whileResetting hbody
  refine ⟨es, lg, hq, .of_acts (whileResetting_acts ha) (fun hf => ?_) hwindowed⟩
  obtain ⟨hsame, hmaps⟩ := hflat hf
  exact ⟨⟨hsame.focus, hsame.winReg, hsame.winWrap, hsame.irqSaved⟩, hmaps⟩

/-! ## One command at a time -/

theorem exec_disable_ran (hready : s.ready) (hr : s.WrapperReachable i d wb) (b : Word) :
    ∃ t es lg, exec (.disable i b) s = .next t ∧ t.response = [0#32] ∧ IsDisable s.params wb b es lg ∧
      s.RanOnWrapper i wb es lg t := by
  obtain ⟨es, lg, hdisable, hran⟩ := withWrapper_ran (body := disableBody b wb)
    (Q := fun es lg _ => IsDisable s.params wb b es lg) hr
    fun u hparams hpa => hparams ▸ disableBody_body b wb u hpa
  exact ⟨_, es, lg, exec_disable_reachable hready hr b, rfl, hdisable, hran _⟩

theorem exec_reset_ran (hready : s.ready) (hr : s.WrapperReachable i d wb) (io ro : Word) :
    ∃ t es lg, exec (.reset i io ro) s = .next t ∧ t.response = [0#32] ∧ IsReset s.params wb io ro es lg ∧
      s.RanOnWrapper i wb es lg t := by
  obtain ⟨es, lg, hreset, hran⟩ := whileResetting_ran (body := resetBody io ro wb)
    (Q := IsReset s.params wb io ro) hr fun u hparams hpa => hparams ▸ resetBody_body io ro wb u hpa
  exact ⟨_, es, lg, exec_reset_reachable hready hr io ro, rfl, hreset, hran _⟩

/-- The reads of IS_UP and its answer `v`: `IOCTRL`, and `RESETCTRL` only if the clock is on and not forced (R352). -/
def IsUpReads (wb : Addr) (es : List Event) (v : Word) : Prop :=
  (∃ io : Word, io.extractLsb' 0 2 ≠ 1#2 ∧ v = 0#32 ∧ es = [.memRead .plain (wb + Config.ioCtrl) io]) ∨
  (∃ io r : Word, io.extractLsb' 0 2 = 1#2 ∧ v = (if r.getLsbD 0 then 0#32 else 1#32) ∧
    es = [.memRead .plain (wb + Config.ioCtrl) io, .memRead .plain (wb + Config.resetCtrl) r])

theorem IsUpReads.writeFree {es : List Event} {v : Word} (h : IsUpReads wb es v) : WriteFree es := by
  rcases h with ⟨io, -, -, rfl⟩ | ⟨io, r, -, -, rfl⟩ <;> simp

theorem exec_isUp_ran (hready : s.ready) (hr : s.WrapperReachable i d wb) :
    ∃ t es v, exec (.isUp i) s = .next t ∧ t.response = [v, 0#32] ∧ IsUpReads wb es v ∧
      s.RanOnWrapper i wb es [] t := by
  obtain ⟨es, lg, ⟨hreads, rfl⟩, hran⟩ := withWrapper_ran (body := isUpBody wb)
    (Q := fun es lg v => IsUpReads wb es v ∧ lg = []) hr fun u _ hpa => by
      obtain ⟨es, hbody, hreads⟩ := isUpBody_body wb u hpa
      exact ⟨es, [], hbody, hreads, rfl⟩
  exact ⟨_, es, _, execIsUp_reachable hready hr, rfl, hreads, hran _⟩

/-- CFLAGS and SFLAGS on a core that the guard does not refuse: the masked operation on wrapper register `x`. -/
theorem flagsCommand_ran (hready : s.ready) (hr : s.WrapperReachable i d wb)
    (hg : s.params.guarded s.cfg.family d.coreId = false) (x : Addr) (mask value : Word) :
    ∃ t es v, flagsCommand x i mask value s = .next t ∧ t.response = [v, 0#32] ∧
      IsRmw .plain (wb + x) mask value es v ∧ s.RanOnWrapper i wb es [] t := by
  obtain ⟨es, lg, ⟨hrmw, rfl⟩, hran⟩ := withWrapper_ran (body := flagsBody x mask value wb)
    (Q := fun es lg v => IsRmw .plain (wb + x) mask value es v ∧ lg = []) hr fun u _ hpa => by
      obtain ⟨es, hbody, hrmw⟩ := rmw_body .plain (u.wrapperPa wb x) mask value u
      exact ⟨es, [], hbody, hpa x ▸ hrmw, rfl⟩
  exact ⟨_, es, _, flagsCommand_unguarded hready hr hg x mask value, rfl, hrmw, hran _⟩

theorem guarded_eq_false_iff {p : Params} {f : Family} {c : BitVec 16} :
    p.guarded f c = false ↔ (f, c) ∉ p.guardRefuses := by
  simp [Params.guarded]

/-- The same, in the words of R355 and R356. -/
theorem flagsCommand_rule (hready : s.ready) (hr : s.WrapperReachable i d wb)
    (hg : (s.cfg.family, d.coreId) ∉ s.params.guardRefuses) (x : Addr) (mask value : Word) :
    ∃ t es v, flagsCommand x i mask value s = .next t ∧ t.response = [v, 0#32] ∧
      IsRmw .plain (wb + x) mask value es v ∧
      t.trace = s.trace ++ s.wrapperEnter i wb ++ es ++ s.wrapperLeave i ∧ t.log = s.log ∧
      s.AfterWrapper i wb t ∧ s.SameMemoryOutside [wb + x] t ∧ (mask ||| value = 0#32 → t.bus.mem = s.bus.mem) := by
  obtain ⟨t, es, v, hexec, hresp, hrmw, hran⟩ :=
    flagsCommand_ran hready hr (guarded_eq_false_iff.mpr hg) x mask value
  exact ⟨t, es, v, hexec, hresp, hrmw, hran.trace_eq, hran.log_eq.trans (List.append_nil _), hran.after,
    hran.sameMemoryOutside hrmw.writesWithin, fun hzero => hran.mem_of_writeFree (hrmw.writeFree hzero)⟩

end Commands

/-- Settles O42: DISABLE runs its body on the wrapper (`exec_disable_ran`), which writes two registers. -/
theorem disableSequence : Obligations.DisableSequence := by
  intro s i ioBits d wb hready hr
  obtain ⟨t, es, lg, hexec, hresp, hdisable, hran⟩ := exec_disable_ran hready hr ioBits
  exact ⟨t, es, lg, hexec, hresp, hdisable, hran.trace_eq, hran.log_eq, hran.after,
    hran.sameMemoryOutside hdisable.writesWithin⟩

/-- Settles O43: RESET runs its body on the wrapper (`exec_reset_ran`), which writes two registers. -/
theorem resetSequence : Obligations.ResetSequence := by
  intro s i ioBits resetOnly d wb hready hr
  obtain ⟨t, es, lg, hexec, hresp, hreset, hran⟩ := exec_reset_ran hready hr ioBits resetOnly
  exact ⟨t, es, lg, hexec, hresp, hreset, hran.trace_eq, hran.log_eq, hran.after,
    hran.sameMemoryOutside hreset.writesWithin⟩

/-- Settles O44: IS_UP runs its body on the wrapper (`exec_isUp_ran`), which only reads. -/
theorem isUpRule : Obligations.IsUpRule := by
  intro s i d wb hready hr
  obtain ⟨t, es, v, hexec, hresp, hreads, hran⟩ := exec_isUp_ran hready hr
  exact ⟨t, es, v, hexec, hresp, hreads, hran.trace_eq, hran.log_eq.trans (List.append_nil _), hran.after,
    hran.mem_of_writeFree hreads.writeFree⟩

/-- Settles O45: CFLAGS and SFLAGS are one guarded operation on two registers. -/
theorem flagsRule : Obligations.FlagsRule := by
  intro s i mask value d wb hready hr hg
  exact ⟨flagsCommand_rule hready hr hg Config.ioCtrl mask value,
    flagsCommand_rule hready hr hg Config.ioStatus mask value⟩

/-! ## The checks before the wrapper is touched (R341, R354) -/

section Checks

variable {s : State} {i : Word} {d : CoreDescriptor}

/-- Checks (b) and (c) of R341. -/
theorem usableWrapper_eq_none_iff (hrow : s.row i = some d) : s.usableWrapper i = none ↔
    d.wrapperAddr = none ∨ s.cfg.transport ≠ .flat ∧ s.cfg.windowCount = 1 := by
  cases hwrap : d.wrapperAddr with
  | none => simp [State.usableWrapper, hrow, hwrap]
  | some wb => simp [State.usableWrapper, hrow, hwrap, State.flat]

/-- The guard comes after the range checks and before any event (R354). -/
theorem flagsCommand_refused {wb : Addr} (hready : s.ready) (husable : s.usableWrapper i = some (d, wb))
    (hg : s.params.guarded s.cfg.family d.coreId = true) (x : Addr) (mask value : Word) :
    flagsCommand x i mask value s =
      .next { s.answers [0#32, 5#32] with log := s.log ++ [.guardRefusal i] } := by
  unfold flagsCommand
  simp only [command_ready _ s hready, usableWrapper_begin, husable, begin_params, begin_cfg, hg, if_true]
  rfl

end Checks

/-- Settles O46: a core that fails a range check has no usable wrapper; one that passes meets the guard. -/
theorem wrapperChecks : Obligations.WrapperChecks := by
  intro s i d hready hrow
  refine ⟨fun hfail => ?_, fun hwrap htransport hguard mask value => ?_⟩
  · have hnone : s.usableWrapper i = none := (usableWrapper_eq_none_iff hrow).mpr hfail
    exact ⟨fun _ => lifecycleCommand_noWrapper hready hnone _, fun _ _ => lifecycleCommand_noWrapper hready hnone _,
      exec_isUp_noWrapper hready hnone, flagsCommand_noWrapper hready hnone _,
      flagsCommand_noWrapper hready hnone _⟩
  · have hg : s.params.guarded s.cfg.family d.coreId = true := List.contains_iff_mem.mpr hguard
    cases husable : s.usableWrapper i with
    | none =>
      rcases (usableWrapper_eq_none_iff hrow).mp husable with hnone | ⟨hwindowed, hone⟩
      · exact absurd hnone hwrap
      · exact absurd hone (htransport.resolve_left hwindowed)
    | some found =>
      obtain ⟨d', wb⟩ := found
      obtain ⟨hrow', -⟩ := usableWrapper_some husable
      obtain rfl : d = d' := Option.some.inj (hrow.symm.trans hrow')
      exact ⟨flagsCommand_refused hready husable hg Config.ioCtrl mask value,
        flagsCommand_refused hready husable hg Config.ioStatus mask value⟩

end Sys2Proof.Machine

/-! PROOFS. DISABLE twice, and RESET then IS_UP, on the reference device (45_lifecycle.md R347, R348,
92_eei_decisions.md D35). What these commands do is settled by two words of memory, whatever RESET may be in progress,
so the lifecycle state is taken of the block with none (`State.idle`). -/

namespace Sys2Proof.Machine

/-- `s` with no RESET in progress. -/
def State.idle (s : State) : State := { s with resetting := none }

/-- No operation looks at the RESET in progress. -/
theorem Acts.idle {s t : State} {es : List Event} {lg : List LogEntry} (h : Acts s t es lg) :
    Acts s.idle t.idle es lg :=
  ⟨⟨h.trace, h.mem, h.device, h.winReg, h.winWrap, h.params, h.script, h.answered⟩, h.log, h.attached, h.busy, h.cfg,
    h.table, h.bws, h.oob, h.scanStatus, h.scan, h.commands, h.response, h.traceMark, h.attachMark, rfl⟩

/-! ## From one command to the next -/

namespace State.RanOnWrapper

variable {s t : State} {i : Word} {d : CoreDescriptor} {wb : Addr} {pages : List (BitVec 52)} {es : List Event}
  {lg : List LogEntry}

theorem ready (h : s.RanOnWrapper i wb es lg t) (hready : s.ready) : t.ready :=
  ⟨h.after.session.busy.trans hready.1, h.after.session.attached.trans hready.2⟩

/-- The critical section leaves a row in focus, so the wrapper can be reached again (R313). -/
theorem reachable (h : s.RanOnWrapper i wb es lg t) (hr : s.WrapperReachable i d wb) : t.WrapperReachable i d wb where
  row := (row_eq h.after.session.table i).trans hr.row
  wrapper := hr.wrapper
  windows := fun hf => by
    have hflat : s.flat = false := by rw [← hf, State.flat, State.flat, h.after.session.cfg]
    obtain ⟨hcount, hvalid⟩ := hr.windows hflat
    refine ⟨by rw [h.after.session.cfg]; exact hcount, fun p hp => ?_⟩
    rw [(h.after.windowed hflat).focus, State.focusAfter] at hp
    rw [h.after.session.table]
    cases hidx : s.focus.idx with
    | none =>
      rw [hidx] at hp
      cases hp
      exact (row_some_iff s i).mp ⟨d, hr.row⟩
    | some q =>
      rw [hidx] at hp
      exact hvalid p (hidx.trans hp)

theorem onDevice (h : s.RanOnWrapper i wb es lg t) (hdev : s.idle.WrapperOnDevice i wb pages) :
    t.idle.WrapperOnDevice i wb pages := by
  obtain ⟨⟨u, ws, ha, rfl⟩, -⟩ := h
  have hbegin : s.begin.idle.WrapperOnDevice i wb pages := { hdev with }
  exact { hbegin.acts ha.idle with }

theorem lifecycle_eq (h : s.RanOnWrapper i wb es lg t) (hdev : s.idle.WrapperOnDevice i wb pages) :
    t.idle.lifecycle i = lifecycleOf false ((replay es s.bus.mem).readWord (wb + Config.resetCtrl))
      ((replay es s.bus.mem).readWord (wb + Config.ioCtrl)) := by
  rw [(h.onDevice hdev).lifecycle, ← h.mem_eq]
  rfl

/-- A read of the body with no write before it answers what memory held at the start. -/
theorem read_eq (h : s.RanOnWrapper i wb es lg t) (hdev : s.idle.WrapperOnDevice i wb pages)
    {before after : List Event} {path : AccessPath} {x : Addr} {v : Word}
    (hx : x = Config.resetCtrl ∨ x = Config.ioCtrl) (hes : es = before ++ .memRead path (wb + x) v :: after)
    (hbefore : WriteFree before) : v = s.bus.mem.readWord (wb + x) := by
  obtain ⟨⟨u, ws, ha, rfl⟩, -⟩ := h
  have hbegin : s.begin.idle.WrapperOnDevice i wb pages := { hdev with }
  refine hbegin.read_eq (path := path) (before := s.wrapperEnter i wb ++ before)
    (after := after ++ s.wrapperLeave i) ha.idle hx (by simp [hes]) ?_
  exact (writeFree_append _ _).mpr ⟨writeFree_wrapperEnter s i wb, hbefore⟩

end State.RanOnWrapper

section Device

variable {s : State} {i : Word} {d : CoreDescriptor} {wb : Addr} {pages : List (BitVec 52)}

/-- The device knows the wrapper of a core that can be reached. -/
theorem State.WrapperReachable.onDevice (hr : s.WrapperReachable i d wb) (hdev : s.onReference pages)
    (hwrappers : s.wrappersIn pages) (hmem : s.bus.mem.wf) : s.idle.WrapperOnDevice i wb pages := by
  obtain ⟨p, -, hp⟩ := hwrappers d (List.mem_of_getElem? hr.row) wb hr.wrapper
  exact ⟨hdev, wrapperOf_eq (s := s.idle) hr.row hr.wrapper, ⟨p, hp⟩, hmem, rfl⟩

/-! ## What the commands do on the device -/

theorem clockBits_iff (io : Word) : io.extractLsb' 0 2 = 1#2 ↔ io.getLsbD 0 = true ∧ io.getLsbD 1 = false := by
  have hbits : ∀ b : BitVec 2, b = 1#2 ↔ b.getLsbD 0 = true ∧ b.getLsbD 1 = false := by decide
  simp [hbits]

theorem lifecycleOf_eq_enabled_iff (rc io : Word) : lifecycleOf false rc io = .enabled ↔
    rc.getLsbD 0 = false ∧ io.extractLsb' 0 2 = 1#2 := by
  rw [clockBits_iff]
  exact ⟨bits_of_lifecycleOf_enabled, fun ⟨hrc, h0, h1⟩ => lifecycleOf_enabled hrc h0 h1⟩

/-- IS_UP answers 1 exactly for a core that is Enabled (R58, R352). -/
theorem exec_isUp_onDevice (hready : s.ready) (hr : s.WrapperReachable i d wb)
    (hdev : s.idle.WrapperOnDevice i wb pages) :
    ∃ t, exec (.isUp i) s = .next t ∧ t.response = [if s.idle.lifecycle i = .enabled then 1#32 else 0#32, 0#32] := by
  obtain ⟨t, es, v, hexec, hresp, hreads, hran⟩ := exec_isUp_ran hready hr
  refine ⟨t, hexec, hresp.trans (congrArg (fun v => [v, 0#32]) ?_)⟩
  have hlife : s.idle.lifecycle i = .enabled ↔ (s.bus.mem.readWord (wb + Config.resetCtrl)).getLsbD 0 = false ∧
      (s.bus.mem.readWord (wb + Config.ioCtrl)).extractLsb' 0 2 = 1#2 := by
    rw [hdev.lifecycle]
    exact lifecycleOf_eq_enabled_iff _ _
  rcases hreads with ⟨io, hclock, rfl, hes⟩ | ⟨io, r, hclock, rfl, hes⟩
  · have hio := hran.read_eq hdev (before := []) (.inr rfl) hes writeFree_nil
    rw [if_neg (fun hup => hclock (hio ▸ (hlife.mp hup).2))]
  · have hio := hran.read_eq hdev (before := []) (.inr rfl) hes writeFree_nil
    have hrc := hran.read_eq hdev (before := [.memRead .plain (wb + Config.ioCtrl) io]) (.inl rfl) hes (by simp)
    rw [hio] at hclock
    rw [← hrc] at hlife
    cases hbit : r.getLsbD 0 with
    | false => rw [if_pos (hlife.mpr ⟨hbit, hclock⟩)]; rfl
    | true => rw [if_neg (fun hup => Bool.false_ne_true ((hlife.mp hup).1.symm.trans hbit))]; rfl

/-- DISABLE leaves a core Disabled, and of one already so it reads `RESETCTRL` and no more (R343, R347). -/
theorem exec_disable_onDevice (hready : s.ready) (hr : s.WrapperReachable i d wb)
    (hdev : s.idle.WrapperOnDevice i wb pages) (b : Word) :
    ∃ t es lg, exec (.disable i b) s = .next t ∧ s.RanOnWrapper i wb es lg t ∧ t.idle.lifecycle i = .disabled ∧
      (s.idle.lifecycle i = .disabled → ∃ r, es = [.memRead .plain (wb + Config.resetCtrl) r]) := by
  obtain ⟨t, es, lg, hexec, -, hdisable, hran⟩ := exec_disable_ran hready hr b
  obtain ⟨r, rest, rfl, hin, hout⟩ :=
    hdisable.resetCtrl (m := s.bus.mem) hdev.mem hdev.resetCtrl_aligned hdev.ioCtrl_aligned
  have hread : r = s.bus.mem.readWord (wb + Config.resetCtrl) :=
    hran.read_eq hdev (before := []) (.inl rfl) rfl writeFree_nil
  refine ⟨t, _, lg, hexec, hran, ?_, fun hdis => ⟨r, ?_⟩⟩
  · rw [hran.lifecycle_eq hdev]
    apply lifecycleOf_disabled
    cases hbit : r.getLsbD 0 with
    | false => rw [hout hbit]; rfl
    | true => rw [hin hbit, replay_memRead, replay_nil, ← hread, hbit]
  · rw [hdev.lifecycle] at hdis
    have hbit : r.getLsbD 0 = true := hread ▸ bit_of_lifecycleOf_disabled hdis
    rw [hin hbit]

/-- RESET leaves a core Enabled, with a retry and `io[1]` clear (R348). -/
theorem exec_reset_onDevice (hready : s.ready) (hr : s.WrapperReachable i d wb)
    (hdev : s.idle.WrapperOnDevice i wb pages) {io : Word} (ro : Word) (hretry : 0 < s.params.resetRetries)
    (hio : io.getLsbD 1 = false) :
    ∃ t es lg, exec (.reset i io ro) s = .next t ∧ t.response = [0#32] ∧ s.RanOnWrapper i wb es lg t ∧
      t.idle.lifecycle i = .enabled := by
  obtain ⟨t, es, lg, hexec, hresp, hreset, hran⟩ := exec_reset_ran hready hr io ro
  obtain ⟨hrc, hctrl⟩ := hreset.registers (m := s.bus.mem) hdev.mem hdev.resetCtrl_aligned hdev.ioCtrl_aligned
  refine ⟨t, es, lg, hexec, hresp, hran, ?_⟩
  rw [hran.lifecycle_eq hdev, hrc, hctrl, if_neg (Nat.pos_iff_ne_zero.mp hretry)]
  exact lifecycleOf_enabled rfl (by simp) (by rw [BitVec.getLsbD_or, hio]; rfl)

/-! ## The accesses of a command -/

theorem accessFree_wrapperEnter (s : State) (i : Word) (wb : Addr) : AccessFree (s.wrapperEnter i wb) := by
  unfold State.wrapperEnter
  split
  · split <;> simp
  · exact accessFree_enterEvents s i

theorem accessFree_wrapperLeave (s : State) (i : Word) : AccessFree (s.wrapperLeave i) := by
  unfold State.wrapperLeave
  split
  · exact accessFree_nil
  · exact accessFree_leaveEvents s i

theorem isSome_accessed (e : Event) : e.accessed.isSome = e.access.isSome := by cases e <;> rfl

theorem AccessFree.filter_accessed {es : List Event} (h : AccessFree es) :
    es.filter (fun e => e.accessed.isSome) = [] :=
  List.filter_eq_nil_iff.mpr fun e he => by simp [isSome_accessed, h e he]

/-- The accesses of a command on a wrapper are those of its body. -/
theorem State.RanOnWrapper.filter_accessed {t : State} {es : List Event} {lg : List LogEntry}
    (h : s.RanOnWrapper i wb es lg t) :
    t.commandTrace.filter (fun e => e.accessed.isSome) = es.filter (fun e => e.accessed.isSome) := by
  rw [h.commandTrace_eq, List.filter_append, List.filter_append, (accessFree_wrapperEnter s i wb).filter_accessed,
    (accessFree_wrapperLeave s i).filter_accessed, List.nil_append, List.append_nil]

end Device

/-- Settles O47: each DISABLE leaves the core Disabled, so IS_UP answers 0 and the second has one access to make. -/
theorem disableIdempotent : Obligations.DisableIdempotent := by
  intro s i b d wb pages hready hon hwrappers hmem hr
  have hdev := hr.onDevice hon hwrappers hmem
  obtain ⟨t, es, lg, hfirst, hran, htDisabled, -⟩ := exec_disable_onDevice hready hr hdev b
  have htReady := hran.ready hready
  have htReach := hran.reachable hr
  have htDev := hran.onDevice hdev
  obtain ⟨u, es', lg', hsecond, hran', huDisabled, hone⟩ := exec_disable_onDevice htReady htReach htDev b
  obtain ⟨v1, hup1, hresp1⟩ := exec_isUp_onDevice htReady htReach htDev
  obtain ⟨v2, hup2, hresp2⟩ :=
    exec_isUp_onDevice (hran'.ready htReady) (hran'.reachable htReach) (hran'.onDevice htDev)
  rw [htDisabled, if_neg nofun] at hresp1
  rw [huDisabled, if_neg nofun] at hresp2
  obtain ⟨r, rfl⟩ := hone htDisabled
  exact ⟨t, u, v1, v2, hfirst, hsecond, hup1, hresp1, hup2, hresp2, r, hran'.filter_accessed⟩

/-- Settles O48: RESET leaves the core Enabled, and of an Enabled core IS_UP answers 1. -/
theorem resetBringsUp : Obligations.ResetBringsUp := by
  intro s i io ro d wb pages hready hon hwrappers hmem hr hretry hio
  have hdev := hr.onDevice hon hwrappers hmem
  obtain ⟨t, es, lg, hexec, hresp, hran, hup⟩ := exec_reset_onDevice hready hr hdev ro hretry hio
  obtain ⟨u, hisUp, hanswer⟩ := exec_isUp_onDevice (hran.ready hready) (hran.reachable hr) (hran.onDevice hdev)
  rw [if_pos hup] at hanswer
  exact ⟨t, u, hexec, hresp, hisUp, hanswer⟩

end Sys2Proof.Machine

/-! PROOFS. How many reads RESET makes (45_lifecycle.md R358). No rule of the table or of the windows is needed, so the
bound is proved of the body wherever its accesses fall: `ReadsAtMost` is carried through it. -/

namespace Sys2Proof.Machine

/-! ## Reads among events -/

@[simp] theorem isRead_memRead (path : AccessPath) (pa : Addr) (v : Word) : (Event.memRead path pa v).isRead = true :=
  rfl
@[simp] theorem isRead_memWrite (path : AccessPath) (pa : Addr) (v : Word) :
    (Event.memWrite path pa v).isRead = false := rfl
@[simp] theorem isRead_delay (n : Nat) : (Event.delay n).isRead = false := rfl

theorem AccessFree.countP_isRead {es : List Event} (h : AccessFree es) : es.countP Event.isRead = 0 := by
  rw [List.countP_eq_zero]
  intro e he
  have hnone : e.access = none := h e he
  cases e
  case memRead => cases hnone
  all_goals exact Bool.false_ne_true

/-- A wait reads once for each value it saw. -/
theorem countP_isRead_pollEvents (period : Nat) (pa : Addr) (vs : List Word) :
    (pollEvents period pa vs).countP Event.isRead = vs.length := by
  induction vs with
  | nil => rfl
  | cons v rest ih =>
    cases rest with
    | nil => rfl
    | cons w rest => simpa [pollEvents, List.countP_cons] using ih

theorem IsWait.reads_le {period maxPolls : Nat} {pa : Addr} {es : List Event} {drained : Bool}
    (h : IsWait period maxPolls pa es drained) : es.countP Event.isRead ≤ max 1 maxPolls := by
  obtain ⟨vs, last, rfl, -, -, hbound, -⟩ := h
  rw [countP_isRead_pollEvents, List.length_append]
  exact hbound

theorem IsTwoTierWait.reads_le {p : Params} {pa : Addr} {es : List Event} {tolerated : Bool}
    (h : IsTwoTierWait p pa es tolerated) :
    es.countP Event.isRead ≤ max 1 p.shortPolls + max 1 p.longPolls := by
  rcases h with ⟨-, hshort⟩ | ⟨short, long, rfl, hshort, hlong⟩
  · exact hshort.reads_le.trans (Nat.le_add_right _ _)
  · rw [List.countP_append]
    exact Nat.add_le_add hshort.reads_le hlong.reads_le

/-! ## The reads of a body -/

/-- The bound of R358, for any poll bounds: a wait reads once even if its bound is 0 (log 23). -/
def Params.resetReadBound (p : Params) : Nat :=
  max 1 p.shortPolls + max 1 p.longPolls + 2 * max 1 p.shortPolls + p.resetRetries * (max 1 p.shortPolls + 1) + 1

/-- From `s` to `u` there is only a body's work, with at most `n` reads. -/
def ReadsAtMost (n : Nat) (s u : State) : Prop := ∃ es lg, Body s u es lg ∧ es.countP Event.isRead ≤ n

namespace ReadsAtMost

variable {s u v : State} {m n : Nat}

theorem refl (s : State) : ReadsAtMost 0 s s := ⟨[], [], Body.refl s, Nat.le_refl 0⟩

theorem params_eq (h : ReadsAtMost n s u) : u.params = s.params := by
  obtain ⟨_, _, hb, -⟩ := h
  exact hb.params

theorem trans (h : ReadsAtMost m s u) (k : ReadsAtMost n u v) : ReadsAtMost (m + n) s v := by
  obtain ⟨_, _, hb, hm⟩ := h
  obtain ⟨_, _, kb, hn⟩ := k
  refine ⟨_, _, hb.trans kb, ?_⟩
  rw [List.countP_append]
  exact Nat.add_le_add hm hn

theorem mono (h : ReadsAtMost m s u) (hle : m ≤ n) : ReadsAtMost n s u := by
  obtain ⟨es, lg, hb, hm⟩ := h
  exact ⟨es, lg, hb, hm.trans hle⟩

theorem logEntry (h : ReadsAtMost n s u) (e : LogEntry) : ReadsAtMost n s (u.logEntry e) :=
  h.trans (n := 0) ⟨_, _, body_logEntry e u, Nat.le_refl 0⟩

theorem delay (h : ReadsAtMost n s u) (micros : Nat) : ReadsAtMost n s (u.delay micros) :=
  h.trans (n := 0) ⟨_, _, body_delay micros u, Nat.le_refl 0⟩

theorem wrapWrite (h : ReadsAtMost n s u) (wb x : Addr) (w : Word) : ReadsAtMost n s (u.wrapWrite wb x w) :=
  h.trans (n := 0) ⟨_, _, wrapWrite_body wb x w u, Nat.le_refl 0⟩

theorem wrapRead (h : ReadsAtMost n s u) (wb x : Addr) : ReadsAtMost (n + 1) s (u.wrapRead wb x).2 :=
  h.trans ⟨_, _, wrapRead_body wb x u, Nat.le_refl 1⟩

theorem shortWait (h : ReadsAtMost n s u) (wb : Addr) :
    ReadsAtMost (n + max 1 s.params.shortPolls) s (u.shortWait wb) := by
  obtain ⟨_, _, hb, hwait⟩ := shortWait_body wb u
  rw [← h.params_eq]
  exact h.trans ⟨_, _, hb, IsWait.reads_le hwait⟩

theorem twoTierWait (h : ReadsAtMost n s u) (wb : Addr) :
    ReadsAtMost (n + (max 1 s.params.shortPolls + max 1 s.params.longPolls)) s (u.twoTierWait wb) := by
  obtain ⟨_, _, hb, hwait⟩ := twoTierWait_body wb u
  rw [← h.params_eq]
  exact h.trans ⟨_, _, hb, hwait.reads_le⟩

/-- Each pass of the self-clear loop is a short wait and one read (R346). -/
theorem clearReset (h : ReadsAtMost n s u) (wb : Addr) (k : Nat) :
    ReadsAtMost (n + k * (max 1 s.params.shortPolls + 1)) s (u.clearReset wb k).2 := by
  induction k generalizing n u with
  | zero => exact h.mono (Nat.le_add_right _ _)
  | succ k ih =>
    have hpass := ((h.shortWait wb).wrapWrite wb Config.resetCtrl 0#32).wrapRead wb Config.resetCtrl
    rw [Nat.succ_mul]
    unfold State.clearReset
    dsimp only
    split
    · exact hpass.mono (by omega)
    · exact (ih hpass).mono (by omega)

/-- ResetBody: a two-tier wait, two short waits, the self-clear loop and the read at the end (R345). -/
theorem resetBody (io ro : Word) (wb : Addr) (s : State) :
    ReadsAtMost s.params.resetReadBound s (resetBody io ro wb s).2 := by
  have hasserted := (((refl s).twoTierWait wb).wrapWrite wb Config.resetCtrl 1#32).delay
    ((s.twoTierWait wb).wrapWrite wb Config.resetCtrl 1#32).params.dlyRstAssert
  have hclocked := ((hasserted.shortWait wb).wrapWrite wb Config.ioCtrl
    (io ||| ro ||| Config.forceClock ||| Config.clockEn)).shortWait wb
  have hcleared := hclocked.clearReset wb s.params.resetRetries
  have hretries := hclocked.params_eq
  unfold Machine.resetBody Params.resetReadBound
  dsimp only
  rw [hretries]
  refine ((wrapWrite ?_ wb _ _).wrapRead wb _).delay _
  split
  · exact hcleared.mono (by omega)
  · exact (hcleared.logEntry _).mono (by omega)

end ReadsAtMost

/-! ## The reads of a command -/

section Commands

variable {s : State} {i : Word}

/-- Prologue and epilogue read nothing, wherever the focus is and however many windows there are. -/
theorem withWrapper_reads {α : Type} {body : State → α × State} {n : Nat} (wb : Addr)
    (hbody : ∀ v, v.params = s.params → ReadsAtMost n v (body v).2) :
    ∃ es lg, Acts s (s.withWrapper i wb body).2 es lg ∧ es.countP Event.isRead ≤ n := by
  unfold State.withWrapper
  cases hflat : s.flat
  · obtain ⟨es', hswitch, -⟩ := switchTo_acts i s.irqMask.2
    obtain ⟨es, lg, hb, hn⟩ := hbody (s.irqMask.2.switchTo i) hswitch.params
    obtain ⟨ha, -⟩ := withFocus_windowed hflat hb
    refine ⟨_, lg, ha, ?_⟩
    simpa [(accessFree_enterEvents s i).countP_isRead, (accessFree_leaveEvents s i).countP_isRead] using hn
  · obtain ⟨hmap, -⟩ := mapWrapper_acts i wb s
    obtain ⟨es, lg, hb, hn⟩ := hbody (s.mapWrapper i wb) hmap.params
    refine ⟨_, _, hmap.trans hb.toActs, ?_⟩
    simpa [(accessFree_mapOnce (cacheGet s.mapWrap i.toNat) wb).countP_isRead] using hn

/-- A RESET that answers has made the reads of its body, or none (R358). -/
theorem exec_reset_reads {io ro : Word} {t : State} (h : exec (.reset i io ro) s = .next t) :
    t.commandTrace.countP Event.isRead ≤ s.params.resetReadBound := by
  obtain ⟨-, rfl⟩ := command_next (show lifecycleCommand i _ s = .next t from h)
  cases husable : s.usableWrapper i with
  | none =>
    simp only [usableWrapper_begin, husable, begin_respond, commandTrace_answers]
    exact Nat.zero_le _
  | some found =>
    obtain ⟨d, wb⟩ := found
    simp only [usableWrapper_begin, husable]
    obtain ⟨es, lg, ha, hn⟩ := withWrapper_reads (s := { s.begin with resetting := some i }) (i := i) wb
      fun v hparams => hparams ▸ ReadsAtMost.resetBody io ro wb v
    rw [(whileResetting_acts ha).commandTrace_respond]
    exact hn

end Commands

/-- Settles O49: bounds of at least 1 are what `exec_reset_reads` makes of them. -/
theorem resetReadsBounded : Obligations.ResetReadsBounded := by
  intro s i io ro t h hshort hlong
  have hreads := exec_reset_reads h
  rw [Params.resetReadBound, List.countP_eq_length_filter, Nat.max_eq_right hshort, Nat.max_eq_right hlong] at hreads
  exact hreads

end Sys2Proof.Machine

/-! PROOFS. The timeout monitor (46_timeout_monitor.md R390 to R397): ARM_TIMEOUTS and CLEAR_TIMEOUT as commands, where
they may write, and the one bridge of scenario D. -/

namespace Sys2Proof.Machine

section TimeoutMonitor

variable {s t : State} {b : Addr} {bs left pas : List Addr} {es : List Event} {n : Nat}

/-- Memory made by replaying events is as it was outside the words they write. -/
theorem WritesWithin.sameMemoryOutside (h : WritesWithin pas es) (hmem : t.bus.mem = replay es s.bus.mem) :
    s.SameMemoryOutside pas t := by
  intro a ha
  rw [hmem]
  exact readByte_replay_other es _ fun path pa v he => ha pa (h _ he path pa v rfl)

@[simp] theorem writesIn_map (pa size : Addr) : (Event.map pa size).WritesIn pas := nofun

/-! ## The commands on each transport (R390) -/

theorem exec_armTimeouts_flat (hready : s.ready) (hflat : s.flat = true) :
    exec .armTimeouts s = .next ((s.begin.armBridges s.bws).respond (answerStatus .ok)) := by
  unfold exec execArmTimeouts
  rw [command_ready _ s hready, flat_begin, if_pos hflat, begin_bws]

theorem exec_armTimeouts_windowed (hready : s.ready) (hflat : s.flat = false) :
    exec .armTimeouts s = .next (s.answers (answerStatus .rangeError)) := by
  unfold exec execArmTimeouts
  exact command_answers hready (by simp [hflat])

theorem exec_clearTimeout_flat (hready : s.ready) (hflat : s.flat = true) :
    exec .clearTimeout s = .next ((s.begin.clearBridges s.bws).2.respond
      (if (s.begin.clearBridges s.bws).1 then answer32 1 .timeoutFatal else answer32 0 .ok)) := by
  unfold exec execClearTimeout
  rw [command_ready _ s hready, flat_begin, if_pos hflat, begin_bws]

theorem exec_clearTimeout_windowed (hready : s.ready) (hflat : s.flat = false) :
    exec .clearTimeout s = .next (s.answers (answer32 0 .rangeError)) := by
  unfold exec execClearTimeout
  exact command_answers hready (by simp [hflat])

/-! ## Arming (R391) -/

/-- The events that arm these bridges with `w`, in order. -/
def armEvents (w : Word) (bs : List Addr) : List Event :=
  bs.flatMap fun b => [.map b Config.coreWindowSize, .memWrite .plain (b + Config.errLogCtrl) w]

theorem armEvents_cons (w : Word) (b : Addr) (bs : List Addr) : armEvents w (b :: bs) =
    .map b Config.coreWindowSize :: .memWrite .plain (b + Config.errLogCtrl) w :: armEvents w bs := rfl

/-- Arming changes the trace and the memory alone. -/
theorem armBridges_eq (bs : List Addr) (s : State) : s.armBridges bs = { s with
    trace := s.trace ++ armEvents (errLogCtrlValue s.params.timeoutExp) bs
    bus := { s.bus with mem := replay (armEvents (errLogCtrlValue s.params.timeoutExp) bs) s.bus.mem } } := by
  induction bs generalizing s with
  | nil => simp [State.armBridges, armEvents]
  | cons b rest ih =>
    rw [State.armBridges, ih, armEvents_cons]
    simp [State.armBridge, State.memWrite, State.map, State.emit, replay]

theorem writesWithin_armEvents (w : Word) (bs : List Addr) :
    WritesWithin (bs.map (· + Config.errLogCtrl)) (armEvents w bs) := by
  intro e he
  obtain ⟨b, hb, hmem⟩ := List.mem_flatMap.mp he
  have hpage : WritesWithin (bs.map (· + Config.errLogCtrl))
      [.map b Config.coreWindowSize, .memWrite .plain (b + Config.errLogCtrl) w] := by
    simp [hb]
  exact hpage e hmem

/-! ## Where CLEAR_TIMEOUT writes (R393) -/

theorem IsAckWait.writeFree {acked : Bool} (h : IsAckWait n b es acked) : WriteFree es := by
  have hpolls : ∀ vs : List Word, WriteFree (vs.map fun v => .memRead .plain (b + Config.errLogStatus) v) := by
    intro vs e he
    obtain ⟨v, -, rfl⟩ := List.mem_map.mp he
    rfl
  obtain ⟨vs, -, ⟨-, -, rfl⟩ | ⟨-, -, last, -, rfl⟩⟩ := h
  · exact hpolls vs
  · exact hpolls (vs ++ [last])

/-- One bridge is written at its `ERRLOGDONE` and `RESETCTRL` alone. -/
theorem IsClearBridge.writesWithin {fatal : Bool} (h : IsClearBridge n b es fatal)
    (hdone : b + Config.errLogDone ∈ pas) (hreset : b + Config.resetCtrl ∈ pas) : WritesWithin pas es := by
  obtain ⟨status, ⟨-, -, rfl⟩ | ⟨-, polls, hpolls, pulse, rfl, hpulse⟩⟩ := h
  · simp
  · have hwrites : WritesWithin pas pulse := by
      rcases hpulse with ⟨-, rfl⟩ | ⟨-, x, y, rfl⟩ <;> simp [hreset]
    simp [hpolls.writeFree.writesWithin, hdone, hwrites]

theorem IsClearBridges.writesWithin (h : IsClearBridges n bs es left)
    (hdone : ∀ b ∈ bs, b + Config.errLogDone ∈ pas) (hreset : ∀ b ∈ bs, b + Config.resetCtrl ∈ pas) :
    WritesWithin pas es := by
  induction bs generalizing es left with
  | nil =>
    obtain ⟨rfl, -⟩ := h
    exact writesWithin_nil
  | cons b rest ih =>
    obtain ⟨e1, e2, fatal, left2, rfl, hbridge, -, hrest⟩ := h
    obtain ⟨hdoneB, hdoneRest⟩ := List.forall_mem_cons.mp hdone
    obtain ⟨hresetB, hresetRest⟩ := List.forall_mem_cons.mp hreset
    exact (writesWithin_append e1 e2).mpr
      ⟨hbridge.writesWithin hdoneB hresetB, ih hrest hdoneRest hresetRest⟩

/-! ## A bridge that acknowledges at the first poll (R397) -/

/-- After the status read and the acknowledge write to the bridge at `b`, before the first poll. -/
def State.acknowledged (b : Addr) (s : State) : State :=
  ((s.map b Config.coreWindowSize).memRead .plain (b + Config.errLogStatus)).2.memWrite .plain
    (b + Config.errLogDone) 3#32

/-- The status that CLEAR_TIMEOUT reads first. -/
def State.reportedStatus (b : Addr) (s : State) : Word :=
  (s.map b Config.coreWindowSize).busAnswer (b + Config.errLogStatus)

theorem acknowledged_body (b : Addr) (s : State) : Body s (s.acknowledged b)
    [.map b Config.coreWindowSize, .memRead .plain (b + Config.errLogStatus) (s.reportedStatus b),
      .memWrite .plain (b + Config.errLogDone) 3#32] [] :=
  ((body_map b Config.coreWindowSize s).trans (body_memRead .plain (b + Config.errLogStatus) _)).trans
    (body_memWrite .plain (b + Config.errLogDone) 3#32 _)

theorem acknowledged_bus (b : Addr) (s : State) : (s.acknowledged b).bus = { s.bus with
    script := s.bus.script.eraseP (fun e => e.1 == b + Config.errLogStatus)
    mem := s.bus.mem.writeWord (b + Config.errLogDone) 3#32 } := rfl

/-- What the bus answers depends on the trace and on what lies behind it alone. -/
theorem busAnswer_congr (htrace : t.trace = s.trace) (hbus : t.bus = s.bus) (pa : Addr) :
    t.busAnswer pa = s.busAnswer pa := by
  unfold State.busAnswer
  rw [htrace, hbus]

theorem clearBridge_acked (htimeout : field (s.reportedStatus b) 0 2 = 2#2)
    (hack : field ((s.acknowledged b).busAnswer (b + Config.errLogStatus)) 0 2 = 0#2) (hpolls : 0 < s.params.ackPolls) :
    s.clearBridge b =
      (false, ((s.acknowledged b).memRead .plain (b + Config.errLogStatus)).2.pulse b) := by
  obtain ⟨k, hk⟩ := Nat.exists_eq_add_one_of_ne_zero hpolls.ne'
  have hwait : (s.acknowledged b).waitAck b (k + 1) =
      (true, ((s.acknowledged b).memRead .plain (b + Config.errLogStatus)).2) := if_pos hack
  have hrun : s.clearBridge b =
      (let a := (s.acknowledged b).waitAck b s.params.ackPolls
       if a.1 then (false, a.2.pulse b) else (true, a.2.logEntry (.timeoutFatal b))) := if_pos htimeout
  rw [hrun, hk, hwait]
  rfl

/-- Such a bridge is left without error, by these events. -/
theorem clearBridge_acked_body (htimeout : field (s.reportedStatus b) 0 2 = 2#2)
    (hack : field ((s.acknowledged b).busAnswer (b + Config.errLogStatus)) 0 2 = 0#2) (hpolls : 0 < s.params.ackPolls) :
    ∃ x y, (s.clearBridge b).1 = false ∧ Body s (s.clearBridge b).2
      [.map b Config.coreWindowSize, .memRead .plain (b + Config.errLogStatus) (s.reportedStatus b),
        .memWrite .plain (b + Config.errLogDone) 3#32,
        .memRead .plain (b + Config.errLogStatus) ((s.acknowledged b).busAnswer (b + Config.errLogStatus)),
        .memWrite .plain (b + Config.resetCtrl) 1#32, .memRead .plain (b + Config.resetCtrl) x,
        .memWrite .plain (b + Config.resetCtrl) 0#32, .memRead .plain (b + Config.resetCtrl) y] [] := by
  rw [clearBridge_acked htimeout hack hpolls]
  obtain ⟨x, y, hpulse⟩ := pulse_body b ((s.acknowledged b).memRead .plain (b + Config.errLogStatus)).2
  exact ⟨x, y, rfl, ((acknowledged_body b s).trans (body_memRead .plain (b + Config.errLogStatus) _)).trans hpulse⟩

theorem clearBridges_singleton (b : Addr) (s : State) : s.clearBridges [b] = s.clearBridge b := by
  simp [State.clearBridges]

end TimeoutMonitor

/-- Settles O52: on Flat the command arms every bridge (`armBridges_eq`), which writes `ERRLOGCTRL`s alone. -/
theorem armTimeoutsRule : Obligations.ArmTimeoutsRule := by
  intro s hready
  refine ⟨fun htransport => ?_, fun hwindowed => ?_⟩
  · have hstate : (s.begin.armBridges s.bws).respond (answerStatus .ok) = { s.answers [0#32] with
        trace := s.trace ++ armEvents (errLogCtrlValue s.params.timeoutExp) s.bws
        bus := { s.bus with mem := replay (armEvents (errLogCtrlValue s.params.timeoutExp) s.bws) s.bus.mem } } := by
      rw [armBridges_eq]
      rfl
    exact ⟨_, exec_armTimeouts_flat hready ((flat_iff s).mpr htransport), hstate,
      (writesWithin_armEvents _ s.bws).sameMemoryOutside (congrArg (·.bus.mem) hstate)⟩
  · exact exec_armTimeouts_windowed hready (by rw [← Bool.not_eq_true, flat_iff]; exact hwindowed)

/-- Settles O53: on Flat the command is the clearing of every bridge (`clearBridges_body`), which writes two registers
of each. -/
theorem clearTimeoutSequence : Obligations.ClearTimeoutSequence := by
  intro s hready
  refine ⟨fun htransport => ?_, fun hwindowed => ?_⟩
  · obtain ⟨es, left, hbody, hclear, hleft⟩ := clearBridges_body s.bws s.begin
    have hresponse : (if (s.begin.clearBridges s.bws).1 then answer32 1 .timeoutFatal else answer32 0 .ok) =
        if left = [] then [0#32, 0#32] else [1#32, 4#32] := by
      simp only [← hleft, ← Bool.not_eq_true, ite_not]
      rfl
    have hwrites : WritesWithin (s.bws.map (· + Config.errLogDone) ++ s.bws.map (· + Config.resetCtrl)) es :=
      hclear.writesWithin (fun b hb => List.mem_append_left _ (List.mem_map_of_mem hb))
        (fun b hb => List.mem_append_right _ (List.mem_map_of_mem hb))
    exact ⟨_, es, left, exec_clearTimeout_flat hready ((flat_iff s).mpr htransport), hclear, hbody.trace, hresponse,
      hbody.log, hbody.sameSession _, hbody.sameFocus _, hbody.mapReg, hbody.mapWrap,
      hwrites.sameMemoryOutside hbody.mem⟩
  · exact exec_clearTimeout_windowed hready (by rw [← Bool.not_eq_true, flat_iff]; exact hwindowed)

/-- Settles O54: the state in which the poll is answered is the one the statement names (`State.acknowledged`), so the
one bridge is cleared as `clearBridge_acked_body` says. -/
theorem scenarioD : Obligations.ScenarioD := by
  intro s b hready htransport hbws hpolls status reported v0 acked v1 htimeout hack
  have hfirst : s.begin.reportedStatus b = v0 := busAnswer_congr (s := reported) rfl rfl status
  have htrace : (s.begin.acknowledged b).trace = acked.trace := by
    rw [(acknowledged_body b s.begin).trace, hfirst]
    rfl
  have hsecond : (s.begin.acknowledged b).busAnswer (b + Config.errLogStatus) = v1 :=
    busAnswer_congr htrace (acknowledged_bus b s.begin) status
  obtain ⟨x, y, hcleared, hbody⟩ := clearBridge_acked_body (s := s.begin) (b := b)
    (hfirst ▸ htimeout) (hsecond ▸ hack) hpolls
  have hexec := exec_clearTimeout_flat hready ((flat_iff s).mpr htransport)
  rw [hbws, clearBridges_singleton, hcleared] at hexec
  rw [hfirst, hsecond] at hbody
  exact ⟨_, x, y, hexec, rfl, hbody.commandTrace_respond _⟩

end Sys2Proof.Machine

/-! PROOFS. Memory word by word, and the answers of the bus (20_memory.md R70 to R77, 60_exceptions.md R464,
92_eei_decisions.md D35): a step's events say what each of its reads was answered (`OnBus.answered`). -/

namespace Sys2Proof.Machine

/-- Settles O55, by what a stored word does to itself and to other bytes. -/
theorem memoryReadAfterWrite : Obligations.MemoryReadAfterWrite :=
  fun m pa v hwf => ⟨readWord_writeWord_same hwf pa v, fun _ hout => readByte_writeWord_other m pa v hout⟩

/-! ## The oracle (R464) -/

section Answers

variable {s t : State} {es : List Event} {pages : List (BitVec 52)}

theorem deviceAnswer_onOracle (h : s.onOracle) (before : List Event) (pa : Addr) :
    s.deviceAnswer before pa = Config.busOracle (s.trace ++ before) pa := by
  rw [State.deviceAnswer, h.1]

theorem OnBus.onOracle (h : OnBus s t es) (hs : s.onOracle) : t.onOracle :=
  ⟨h.device.trans hs.1, h.script hs.2⟩

/-- A read of the longer trace is one of the old trace or one of the new events. -/
theorem OnBus.oracleAnswered (h : OnBus s t es) (hs : s.onOracle) (hold : Answered s.trace) : Answered t.trace := by
  have hnew : ∀ (before after : List Event) (path : AccessPath) (pa : Addr) (v : Word),
      es = before ++ .memRead path pa v :: after → v = Config.busOracle (s.trace ++ before) pa :=
    fun before after path pa v he => by
      rw [h.answered hs.2 before after path pa v he, deviceAnswer_onOracle hs]
  intro before after path pa v htrace
  rw [h.trace] at htrace
  rcases List.append_eq_append_iff.mp htrace with ⟨mid, rfl, hes⟩ | ⟨mid, hprefix, hrest⟩
  · exact hnew mid after path pa v hes
  · cases mid with
    | nil =>
      rw [List.append_nil] at hprefix
      rw [← hprefix, hnew [] after path pa v hrest.symm, List.append_nil]
    | cons e mid =>
      obtain ⟨rfl, -⟩ := List.cons.inj hrest
      exact hold before mid path pa v hprefix

/-! ## The reference device (D35) -/

theorem isStatusRegister_iff (pages : List (BitVec 52)) (pa : Addr) : isStatusRegister pages pa = true ↔
    ∃ p ∈ pages, pa = pageBase p + 0x804#64 ∨ pa = pageBase p + 0x908#64 := by
  simp only [isStatusRegister, List.any_eq_true, Bool.or_eq_true, beq_iff_eq]
  rfl

theorem referenceAnswer_status {pa : Addr} (h : isStatusRegister pages pa = true) (m : Memory) :
    referenceAnswer pages m pa = 0#32 := if_pos h

theorem referenceAnswer_word {pa : Addr} (h : ¬isStatusRegister pages pa = true) (m : Memory) :
    referenceAnswer pages m pa = m.readWord pa := if_neg h

theorem OnBus.onReference (h : OnBus s t es) (hs : s.onReference pages) : t.onReference pages :=
  ⟨h.device.trans hs.1, h.script hs.2⟩

/-- Each read is answered from memory as the events before it have left it. -/
theorem OnBus.referenceAnswered (h : OnBus s t es) (hs : s.onReference pages) {before after : List Event}
    {path : AccessPath} {pa : Addr} {v : Word} (he : es = before ++ .memRead path pa v :: after) :
    v = referenceAnswer pages (replay before s.bus.mem) pa := by
  rw [h.answered hs.2 before after path pa v he, State.deviceAnswer, hs.1]

end Answers

/-- Settles O57: `OnBus` of the step's events (`step_accounted`), on either device. -/
theorem readsAreAnswered : Obligations.ReadsAreAnswered := by
  intro s t h
  obtain ⟨es, hbus⟩ := step_accounted h
  refine ⟨fun hs => ⟨hbus.onOracle hs, hbus.oracleAnswered hs⟩, fun pages hs => ⟨hbus.onReference hs, ?_⟩⟩
  intro es' before after path pa v htrace hread
  obtain rfl : es' = es := List.append_cancel_left (htrace.symm.trans hbus.trace)
  rw [hbus.referenceAnswered hs hread]
  refine ⟨fun hstatus => referenceAnswer_status ((isStatusRegister_iff pages pa).mpr hstatus) _, fun hother => ?_⟩
  refine referenceAnswer_word (fun hstatus => ?_) _
  obtain ⟨p, hp, hpa⟩ := (isStatusRegister_iff pages pa).mp hstatus
  obtain ⟨hreset, herrlog⟩ := hother p hp
  exact hpa.elim hreset herrlog

end Sys2Proof.Machine

/-! PROOFS. What a step answers (60_exceptions.md R420, R424): never a fault, and in a scan a next state, since a word
read by position stands where the reader reads by position. -/

namespace Sys2Proof.Machine

section Answers

variable {s : State} {w : Word}

/-! ## A word of the stream has a meaning where it stands -/

theorem taggedWord_busy {onIdentity : State → State} {onMpd : Nat → State → State} {onAsd : AsdSite → State → State}
    (hbusy : s.busy = true) : ∃ t, taggedWord w onIdentity onMpd onAsd s = .next t := ⟨_, if_pos hbusy⟩

theorem positionalWord_busy (hbusy : s.busy = true) (hpos : s.scan.pos.position ≠ .tagged) :
    ∃ t, positionalWord w s = .next t := by
  cases hp : s.scan.pos with
  | identity | mpd | asd => rw [hp] at hpos; exact absurd rfl hpos
  | cib => exact ⟨_, positionalWord_cib hbusy hp⟩
  | addrHi => exact ⟨_, positionalWord_addrHi hbusy hp⟩
  | szd => exact ⟨_, positionalWord_szd hbusy hp⟩
  | sizeHi => exact ⟨_, positionalWord_sizeHi hbusy hp⟩

/-- Every kind that is read by position is read as a positional word. -/
theorem exec_positional {i : Instr} {p : Position} (hpos : i.position = some p) (hp : p ≠ .tagged) :
    ∃ w, ∀ s, exec i s = positionalWord w s := by
  cases i with
  | cib | addrHi | szd | sizeHi => exact ⟨_, fun _ => rfl⟩
  | cia | mpd | asdSlave | asdBridge | asdSwrap | asdMwrap | endOnes | endRom | invalid | reserved011 | reserved100
  | reserved101 | reserved111 => cases hpos; exact absurd rfl hp
  | _ => cases hpos

/-- A word of the stream, decoded at the position the reader stands at, is never out of its position. -/
theorem exec_decodeStream (hbusy : s.busy = true) (w : Word) :
    ∃ t, exec (decodeStream s.scan.pos.position w) s = .next t := by
  obtain ⟨hword, -, hkind⟩ := streamWordReencodes s.scan.pos.position w
  have htagged (h : (decodeStream s.scan.pos.position w).position = some .tagged) :
      ∃ t, exec (decodeStream s.scan.pos.position w) s = .next t := by
    obtain ⟨_, _, _, hexec⟩ := exec_tagged h hword
    rw [hexec]
    exact taggedWord_busy hbusy
  rcases hkind with hkind | ⟨-, -, hkind⟩
  · by_cases hp : s.scan.pos.position = .tagged
    · exact htagged (hkind.trans (congrArg some hp))
    · obtain ⟨_, hexec⟩ := exec_positional hkind hp
      rw [hexec]
      exact positionalWord_busy hbusy hp
  · exact htagged hkind

theorem step_scanning_next (hbusy : s.busy = true) : ∃ t, step s = .next t := by
  rw [step_scanning hbusy]
  split
  · exact ⟨_, rfl⟩
  · exact exec_decodeStream (s := s.advance.2) hbusy s.advance.1

/-! ## A command never faults -/

theorem execAttach_not_fault (transport busGen windowCount chipId chipRev package fastCount : Word)
    (fast : List (Word × Word)) (s : State) (r : Fault) :
    execAttach transport busGen windowCount chipId chipRev package fastCount fast s ≠ .fault r := by
  unfold execAttach
  split
  · nofun
  · split <;> nofun

theorem execScan_not_fault (s : State) (r : Fault) : execScan s ≠ .fault r := by
  unfold execScan
  split
  · nofun
  · split <;> nofun

theorem exec_command_not_fault {i : Instr} (hpos : i.position = none) (s : State) (r : Fault) :
    exec i s ≠ .fault r := by
  cases hattach : isAttach i
  · by_cases hscan : i = .scan
    · subst hscan
      exact execScan_not_fault s r
    · obtain ⟨body, hbody⟩ := exec_eq_command hpos hattach hscan
      rw [hbody]
      exact command_not_fault body s r
  · cases i with
    | attach => exact execAttach_not_fault _ _ _ _ _ _ _ _ s r
    | _ => cases hattach

/-- A descriptor word outside a scan is refused, whatever it is (R72; log 21). -/
theorem exec_word_idle {i : Instr} (hpos : i.position ≠ none) (hbusy : s.busy = false) :
    exec i s = .refused .noScanInProgress := by
  have hidle : ¬s.busy = true := by simp [hbusy]
  cases i with
  | cia | cib | mpd | asdSlave | asdBridge | asdSwrap | asdMwrap | addrHi | szd | sizeHi | endOnes | endRom
  | invalid | reserved011 | reserved100 | reserved101 | reserved111 => exact if_neg hidle
  | _ => exact absurd rfl hpos

/-- Between scans the block waits, refuses the port's words, or runs a command. -/
theorem step_between_not_fault (hbusy : s.busy = false) (r : Fault) : step s ≠ .fault r := by
  cases hport : decodeCommand s.commands with
  | idle => rw [step_waits hbusy (.inl hport)]; nofun
  | incomplete => rw [step_waits hbusy (.inr hport)]; nofun
  | reservedBits => rw [step_reservedBits hbusy hport]; nofun
  | unassigned opc => rw [step_unassigned hbusy hport]; nofun
  | command i rest =>
    rw [step_command hbusy hport]
    by_cases hpos : i.position = none
    · exact exec_command_not_fault hpos _ r
    · rw [exec_word_idle (s := { s with commands := rest }) hpos hbusy]
      nofun

end Answers

/-- Settles O7: in a scan a step answers a next state (`step_scanning_next`), between scans it runs no word of the
stream. -/
theorem stepNeverFaults : Obligations.StepNeverFaults := by
  intro s
  refine ⟨fun r => ?_, step_scanning_next⟩
  cases hbusy : s.busy
  · exact step_between_not_fault hbusy r
  · obtain ⟨t, ht⟩ := step_scanning_next hbusy
    rw [ht]
    nofun

end Sys2Proof.Machine

/-! PROOFS. A command that answers RangeError is its answer and nothing more (60_exceptions.md R423): no command body
both changes the state and answers that status. -/

namespace Sys2Proof.Machine

/-- From `s` to `t`: if the response ends in the RangeError status, it is all that was given. -/
def RangeSilent (s t : State) : Prop := t.response.getLast? = some 2#32 → t = s.answers t.response

/-- A command body that answers RangeError, if it does, in the state it began in. -/
def BodyRangeSilent (body : State → List Word × State) : Prop :=
  ∀ u, (body u).2 = u ∨ (body u).1.getLast? ≠ some 2#32

/-! ## The status of a response is its last word (R116) -/

@[simp] theorem getLast?_answerStatus (st : Status) : (answerStatus st).getLast? = some st.code := rfl

@[simp] theorem getLast?_answer32 (v : Word) (st : Status) : (answer32 v st).getLast? = some st.code := rfl

@[simp] theorem getLast?_answerOpt32 (v : Option Word) (st : Status) :
    (answerOpt32 v st).getLast? = some st.code := by cases v <;> rfl

theorem code_eq_two_iff (st : Status) : st.code = 2#32 ↔ st = .rangeError := by cases st <;> decide

section Silent

variable {s t : State} {i : Word}

theorem RangeSilent.of_answers (s : State) (ws : List Word) : RangeSilent s (s.answers ws) := fun _ => rfl

theorem RangeSilent.of_status (h : t.response.getLast? ≠ some 2#32) : RangeSilent s t := fun hrange => absurd hrange h

theorem BodyRangeSilent.command {body : State → List Word × State} (hbody : BodyRangeSilent body)
    (h : command body s = .next t) : RangeSilent s t := by
  obtain ⟨-, rfl⟩ := command_next h
  rcases hbody s.begin with hsame | hstatus
  · rw [hsame]
    exact .of_answers s _
  · exact .of_status hstatus

/-! ## The bodies, one by one -/

theorem rangeSilent_detach (h : execDetach s = .next t) : RangeSilent s t :=
  BodyRangeSilent.command (fun _ => .inr (by simp [code_eq_two_iff])) h

theorem rangeSilent_switchTo (h : execSwitchTo i s = .next t) : RangeSilent s t := by
  refine BodyRangeSilent.command (fun u => ?_) h
  split
  · exact .inr (by simp [code_eq_two_iff])
  · exact .inl rfl

theorem rangeSilent_access {off mask value : Word} (h : execAccessRegister i off mask value s = .next t) :
    RangeSilent s t := by
  refine BodyRangeSilent.command (fun u => ?_) h
  split
  · split
    · exact .inr (by simp [code_eq_two_iff])
    · exact .inl rfl
  · exact .inl rfl

theorem rangeSilent_lifecycle {run : Addr → State → Unit × State} (h : lifecycleCommand i run s = .next t) :
    RangeSilent s t := by
  refine BodyRangeSilent.command (fun u => ?_) h
  split
  · exact .inl rfl
  · exact .inr (by simp [code_eq_two_iff])

theorem rangeSilent_isUp (h : execIsUp i s = .next t) : RangeSilent s t := by
  refine BodyRangeSilent.command (fun u => ?_) h
  split
  · exact .inl rfl
  · exact .inr (by simp [code_eq_two_iff])

theorem rangeSilent_flags {x : Addr} {mask value : Word} (h : flagsCommand x i mask value s = .next t) :
    RangeSilent s t := by
  refine BodyRangeSilent.command (fun u => ?_) h
  split
  · exact .inl rfl
  · split
    · exact .inr (by simp [code_eq_two_iff])
    · exact .inr (by simp [code_eq_two_iff])

theorem rangeSilent_armTimeouts (h : execArmTimeouts s = .next t) : RangeSilent s t := by
  refine BodyRangeSilent.command (fun u => ?_) h
  split
  · exact .inr (by simp [code_eq_two_iff])
  · exact .inl rfl

theorem rangeSilent_clearTimeout (h : execClearTimeout s = .next t) : RangeSilent s t := by
  refine BodyRangeSilent.command (fun u => ?_) h
  split
  · refine .inr ?_
    dsimp only
    split <;> simp [code_eq_two_iff]
  · exact .inl rfl

/-! ## ATTACH and SCAN -/

theorem rangeSilent_attach {transport busGen windowCount chipId chipRev package fastCount : Word}
    {fast : List (Word × Word)}
    (h : execAttach transport busGen windowCount chipId chipRev package fastCount fast s = .next t) :
    RangeSilent s t := by
  unfold execAttach at h
  split at h
  · cases h
  · split at h
    · cases h
    · cases h
      split
      · exact .of_status (by simp [code_eq_two_iff])
      · exact .of_answers s _

theorem parseFail_status (c : ParseCause) (s : State) : (s.parseFail c).response.getLast? ≠ some 2#32 := by
  simp

theorem scanDone_status (s : State) : s.scanDone.response.getLast? ≠ some 2#32 := by
  obtain ⟨es, ha, -⟩ := scanDone_acts s
  rw [ha.response]
  simp [code_eq_two_iff]

/-- SCAN leaves its response open on an Advanced bus, or ends in success or in a ParseError (R194). -/
theorem scanStart_status (hopen : s.response = []) : s.scanStart.response.getLast? ≠ some 2#32 := by
  unfold State.scanStart
  split
  · obtain ⟨hfound, hfail⟩ := locateStream_spec s.scanPrologue
    by_cases hp : field s.scanPrologue.eromPtr 0 2 = 0#2
    · obtain ⟨u, hu, -, hprobe⟩ := hfound hp
      have hresponse : (u.openStream s.scanPrologue.eromPtr).response = [] := hprobe.response.trans hopen
      rw [hu, hresponse]
      simp
    · obtain ⟨u, hu, -⟩ := hfail hp
      rw [hu]
      exact parseFail_status _ u
  · obtain ⟨_, u, _, _, -, -, -, hend⟩ := legacyScan_spec s.scanPrologue rfl
    rcases hend with hend | ⟨c, hend⟩
    · rw [hend]; exact scanDone_status u
    · rw [hend]; exact parseFail_status c u

theorem rangeSilent_scan (h : execScan s = .next t) : RangeSilent s t := by
  unfold execScan at h
  split at h
  · cases h
  · split at h
    · cases h
      exact .of_status (scanStart_status (s := s.begin) rfl)
    · cases h

/-! ## Every command -/

theorem exec_rangeSilent {i : Instr} (hpos : i.position = none) (h : exec i s = .next t) : RangeSilent s t := by
  cases i with
  | attach transport busGen windowCount chipId chipRev package fastCount fast => exact rangeSilent_attach h
  | detach => exact rangeSilent_detach h
  | scan => exact rangeSilent_scan h
  | coreCount | coreId | coreRev | corePrimaryAddr | corePrimarySize | coreSecondaryAddr | coreSecondarySize
  | coreWrapperAddr | oobRouterAddr | currentFocus => exact BodyRangeSilent.command (fun _ => .inl rfl) h
  | switchTo index => exact rangeSilent_switchTo h
  | accessRegister index offset mask value => exact rangeSilent_access h
  | disable index ioBits => exact rangeSilent_lifecycle h
  | reset index ioBits resetOnlyBits => exact rangeSilent_lifecycle h
  | isUp index => exact rangeSilent_isUp h
  | cflags index mask value => exact rangeSilent_flags h
  | sflags index mask value => exact rangeSilent_flags h
  | armTimeouts => exact rangeSilent_armTimeouts h
  | clearTimeout => exact rangeSilent_clearTimeout h
  | cia | cib | mpd | asdSlave | asdBridge | asdSwrap | asdMwrap | addrHi | szd | sizeHi | endOnes | endRom
  | invalid | reserved011 | reserved100 | reserved101 | reserved111 => cases hpos

end Silent

/-- Settles O32, command by command (`exec_rangeSilent`). -/
theorem rangeErrorChangesNothing : Obligations.RangeErrorChangesNothing :=
  fun _ _ _ hpos h => exec_rangeSilent hpos h

end Sys2Proof.Machine

/-! PROOFS. Every scan ends (41_topology_scan.md R492, 40_stream_reader.md R151, R156). A word is consumed, or it is
pushed back to a control point that pushes it back fewer times (`WordProgress`); so three steps for each word left, and
the retries of the position, go down with every step (`State.scanLeft`). -/

namespace Sys2Proof.Machine

theorem retries_lt (p : ScanPos) : p.retries < 3 := by
  cases p with
  | asd site =>
    cases site with
    | slavePort i j => simp only [ScanPos.retries]; split <;> decide
    | _ => simp [ScanPos.retries]
  | _ => simp [ScanPos.retries]

/-- The scan has ended, or waits with the cursor at `c` for a word that fewer than `n` TryASDs can push back. -/
structure Waits (c : Word) (n : Nat) (t : State) : Prop where
  point : t.busy = true → t.scan.cur = c ∧ t.scan.pos.retries < n

namespace Waits

variable {c : Word} {n : Nat} {u : State} {next : State → State} {ah sh w : Word} {a : Asd} {e : ParseCause}
  {i extras left : Nat} {first : Option Asd} {site : AsdSite} {addr : Addr} {sz : BitVec 2}

/-! ## The control flow of R197, from the last step to the first -/

theorem parseFail : Waits c n (u.parseFail e) := ⟨nofun⟩

theorem goTo {p : ScanPos} (hc : u.scan.cur = c) (hp : p.retries < n) : Waits c n (u.goTo p) := ⟨fun _ => ⟨hc, hp⟩⟩

theorem strictHigh (hc : u.scan.cur = c) (hnext : ∀ v, v.scan.cur = c → Waits c n (next v)) :
    Waits c n (u.strictHigh ah sh next) := by
  unfold State.strictHigh
  split
  · exact hnext u hc
  · split
    · exact parseFail
    · exact hnext _ hc

theorem wrapSize (hc : u.scan.cur = c) (hnext : ∀ v, v.scan.cur = c → Waits c n (next v)) :
    Waits c n (u.wrapSize a e next) := by
  unfold State.wrapSize
  split
  · exact hnext u hc
  · split
    · exact parseFail
    · exact hnext _ hc

theorem recordWrap (hc : u.scan.cur = c) (hnext : ∀ v, v.scan.cur = c → Waits c n (next v)) :
    Waits c n (u.recordWrap a next) := by
  unfold State.recordWrap
  dsimp only
  split
  · exact hnext u hc
  · split
    · exact hnext _ hc
    · exact strictHigh hc hnext

theorem captureBridge (hc : u.scan.cur = c) (hnext : ∀ v, v.scan.cur = c → Waits c n (next v)) :
    Waits c n (u.captureBridge a next) := by
  unfold State.captureBridge
  split
  · split
    · exact parseFail
    · exact hnext _ hc
  · exact hnext u hc

theorem commit (hn : 0 < n) (hc : u.scan.cur = c) : Waits c n u.commit := by
  unfold State.commit State.commitRow
  split
  · exact goTo hc hn
  · split
    · exact parseFail
    · exact goTo hc hn

theorem slaveWraps (hn : 0 < n) (hc : u.scan.cur = c) : Waits c n (u.slaveWraps i) := by
  unfold State.slaveWraps
  split
  · exact goTo hc hn
  · exact commit hn hc

theorem masterWraps (hn : 0 < n) (hc : u.scan.cur = c) : Waits c n (u.masterWraps i) := by
  unfold State.masterWraps
  split
  · exact goTo hc hn
  · exact slaveWraps hn hc

theorem slavePorts (hn : 0 < n) (hc : u.scan.cur = c) : Waits c n (u.slavePorts i) := by
  unfold State.slavePorts
  split
  · exact goTo hc hn
  · exact masterWraps hn hc

theorem endExtras (hn : 0 < n) (hc : u.scan.cur = c) : Waits c n (u.endExtras extras first) := by
  rw [endExtras_eq]
  split
  · split
    · exact slavePorts hn hc
    · exact strictHigh hc fun _ hv => slavePorts hn hv
  · exact slavePorts hn hc

/-- A TryASD that returns NONE leads to a point that pushes its word back fewer times (R492). -/
theorem asdMissing (hc : u.scan.cur = c) : Waits c (ScanPos.asd site).retries (u.asdMissing site) := by
  cases site with
  | capture => exact goTo hc (by decide)
  | primary => exact goTo hc (by decide)
  | bridgeFirst => exact parseFail
  | bridgeMore => exact goTo hc (by decide)
  | extra k first => exact endExtras Nat.one_pos hc
  | slavePort i j =>
    simp only [State.asdMissing, ScanPos.retries]
    split
    · exact parseFail
    · exact slavePorts Nat.one_pos hc
  | masterWrap i => exact parseFail
  | slaveWrap i => exact parseFail

/-- Wherever the scan waits after a word that is not pushed back. -/
theorem goOn {p : ScanPos} (hc : u.scan.cur = c) : Waits c 3 (u.goTo p) := goTo hc (retries_lt p)

theorem asdFound (hc : u.scan.cur = c) : Waits c 3 (u.asdFound site a) := by
  have hn : 0 < 3 := by decide
  cases site with
  | primary => exact strictHigh hc fun _ hv => goOn hv
  | capture | bridgeFirst | bridgeMore | extra | slavePort => exact goOn hc
  | masterWrap i => exact wrapSize hc fun _ hv => recordWrap hv fun _ hw => masterWraps hn hw
  | slaveWrap i =>
    exact wrapSize hc fun _ hv => recordWrap hv fun _ hw => captureBridge hw fun _ hx => slaveWraps hn hx

theorem unitAddr (hc : u.scan.cur = c) : Waits c 3 (u.unitAddr site addr sz) := by
  unfold State.unitAddr
  split
  · exact goOn hc
  · exact asdFound hc

theorem takeSzd (hc : u.scan.cur = c) : Waits c 3 (u.takeSzd site addr w) := by
  unfold State.takeSzd
  split
  · exact goOn hc
  · exact asdFound hc

theorem takeCib (hc : u.scan.cur = c) : Waits c 3 (u.takeCib w) := by
  unfold State.takeCib
  split
  · rw [classify_eq]
    exact ⟨fun _ => ⟨hc, retries_lt _⟩⟩
  · exact parseFail

theorem takeMpd (hc : u.scan.cur = c) : Waits c 3 (u.takeMpd left) := by
  unfold State.takeMpd
  split <;> exact goOn hc

end Waits

/-! ## One word -/

/-- The word just read is consumed, or pushed back to a point that pushes it back fewer times, or ends the scan. -/
def WordProgress (s t : State) : Prop :=
  Waits s.scan.cur 3 t ∨ Waits (s.scan.cur - 1#32) s.scan.pos.retries t

section Words

variable {s t : State} {w : Word}

theorem wordProgress_skip (s : State) : WordProgress s s.skip := .inl ⟨fun _ => ⟨rfl, retries_lt _⟩⟩

theorem wordProgress_parseFail (c : ParseCause) (s : State) : WordProgress s (s.parseFail c) := .inl .parseFail

theorem wordProgress_scanDone (s : State) : WordProgress s s.scanDone :=
  .inl ⟨fun hbusy => by cases (scanDone_busy s).symm.trans hbusy⟩

theorem wordProgress_reject {site : AsdSite} (hpos : s.scan.pos = .asd site) : WordProgress s (s.reject site) := by
  refine .inr ?_
  rw [hpos]
  exact Waits.asdMissing (u := s.pushBack) rfl

theorem wordProgress_asdHead {st : AsdType} {addr : BitVec 20} {sp : BitVec 4} {sz : BitVec 2} {ag32 : BitVec 1}
    {site : AsdSite} (hpos : s.scan.pos = .asd site) : WordProgress s (s.asdHead st addr sp sz ag32 site) := by
  unfold State.asdHead
  split
  · split
    · exact .inl (.goOn rfl)
    · exact .inl (.unitAddr rfl)
  · exact wordProgress_reject hpos

/-- A word of a tagged kind, given what each tagged position makes of it. -/
theorem wordProgress_tagged {onIdentity : State → State} {onMpd : Nat → State → State}
    {onAsd : AsdSite → State → State} (h : taggedWord w onIdentity onMpd onAsd s = .next t)
    (hidentity : WordProgress s (onIdentity s)) (hmpd : ∀ left, WordProgress s (onMpd left s))
    (hasd : ∀ site, s.scan.pos = .asd site → WordProgress s (onAsd site s)) : WordProgress s t := by
  unfold taggedWord at h
  split at h
  case isTrue =>
    cases h
    split
    case h_1 => exact hidentity
    case h_2 => exact .inl (.takeCib rfl)
    case h_3 => exact hmpd _
    case h_4 hpos => exact hasd _ hpos
    case h_5 => exact .inl (.unitAddr rfl)
    case h_6 => exact .inl (.takeSzd rfl)
    case h_7 => exact .inl (.asdFound rfl)
  case isFalse => cases h

theorem wordProgress_positional (h : positionalWord w s = .next t) : WordProgress s t := by
  unfold positionalWord at h
  split at h
  case isTrue =>
    split at h
    case h_4 => cases h; exact .inl (.takeCib rfl)
    case h_5 => cases h; exact .inl (.unitAddr rfl)
    case h_6 => cases h; exact .inl (.takeSzd rfl)
    case h_7 => cases h; exact .inl (.asdFound rfl)
    all_goals cases h
  case isFalse => cases h

/-- A valid word that is neither MPD nor ASD. -/
theorem wordProgress_plain {onIdentity : State → State}
    (h : taggedWord w onIdentity State.notMpd State.reject s = .next t)
    (hidentity : WordProgress s (onIdentity s)) : WordProgress s t :=
  wordProgress_tagged h hidentity (fun _ => wordProgress_parseFail _ s) (fun _ => wordProgress_reject)

theorem exec_wordProgress {i : Instr} (hpos : i.position ≠ none) (h : exec i s = .next t) : WordProgress s t := by
  cases i with
  | cia => unfold exec execCia at h; exact wordProgress_plain h (.inl (.goOn rfl))
  | cib | addrHi | szd | sizeHi => exact wordProgress_positional h
  | mpd =>
    exact wordProgress_tagged h (wordProgress_skip s) (fun _ => .inl (.takeMpd rfl))
      (fun _ => wordProgress_reject)
  | asdSlave | asdBridge | asdSwrap | asdMwrap =>
    exact wordProgress_tagged h (wordProgress_skip s) (fun _ => wordProgress_parseFail _ s)
      (fun _ => wordProgress_asdHead)
  | endOnes | endRom => exact wordProgress_plain h (wordProgress_scanDone s)
  | invalid =>
    exact wordProgress_tagged h (wordProgress_skip s) (fun _ => wordProgress_skip s) (fun _ _ => wordProgress_skip s)
  | reserved011 | reserved100 | reserved101 | reserved111 => exact wordProgress_plain h (wordProgress_skip s)
  | _ => exact absurd rfl hpos

end Words

/-! ## One step -/

/-- The steps a scan may still take after this one: three for each word left, and the retries of the position. -/
def State.scanLeft (s : State) : Nat := 3 * (s.scan.lim.toNat - s.scan.cur.toNat) + s.scan.pos.retries

section Steps

variable {s t : State}

/-- A step that leaves the scan in progress brings its end nearer (R492). -/
theorem step_scanLeft (hbusy : s.busy = true) (h : step s = .next t) (ht : t.busy = true) :
    t.scan.cur ≤ t.scan.lim ∧ t.scanLeft < s.scanLeft := by
  obtain ⟨hlt, hparse⟩ := step_parsing hbusy h ht
  have hlim : t.scan.lim = s.scan.lim := hparse.stream.1
  rw [step_scanning hbusy, if_neg (BitVec.not_le.mpr hlt)] at h
  have hprogress := exec_wordProgress (decodeStream_position _ _) h
  unfold State.scanLeft
  rw [hlim]
  rcases hprogress with hread | hback
  · obtain ⟨hcur, hretries⟩ := hread.point ht
    rw [hcur, advance_cur]
    constructor
    · bv_omega
    · have hnext : (s.scan.cur + 1#32).toNat = s.scan.cur.toNat + 1 := by bv_omega
      have hroom : s.scan.cur.toNat < s.scan.lim.toNat := hlt
      omega
  · obtain ⟨hcur, hretries⟩ := hback.point ht
    rw [advance_cur, BitVec.add_sub_cancel] at hcur
    rw [hcur]
    exact ⟨BitVec.le_of_lt hlt, Nat.add_lt_add_left hretries _⟩

/-- A step of a scan reads once at most, and below the limit alone (R150, R151). -/
theorem step_reads (hbusy : s.busy = true) (h : step s = .next t) :
    t.traceMark = s.traceMark ∧ ∃ es, t.trace = s.trace ++ es ∧
      es.countP Event.isRead ≤ if s.scan.cur < s.scan.lim then 1 else 0 := by
  cases step_run h with
  | noEnd => exact ⟨rfl, [], (List.append_nil _).symm, Nat.zero_le _⟩
  | word _ hlt heffect =>
    obtain ⟨es, htrace, hfree⟩ := heffect.quiet
    refine ⟨heffect.wordFrame.traceMark, _, htrace.trans (List.append_assoc ..), ?_⟩
    rw [if_pos hlt]
    simp [List.countP_cons, hfree.countP_isRead]
  | waiting hidle => cases hidle.symm.trans hbusy
  | command hidle => cases hidle.symm.trans hbusy

end Steps

/-! ## The whole scan -/

/-- From `s` the scan ends after at most `k` steps and one more, with at most `k` reads. -/
def ScanEndsWithin (k : Nat) (s : State) : Prop :=
  ∃ n t es, n ≤ k + 1 ∧ Host.Core.run Sys2Proof.core n s = .next t ∧ t.busy = false ∧
    t.traceMark = s.traceMark ∧ t.trace = s.trace ++ es ∧ es.countP Event.isRead ≤ k

theorem ScanEndsWithin.of_step {s t : State} {es : List Event} {k l : Nat} (hstep : step s = .next t)
    (hmark : t.traceMark = s.traceMark) (htrace : t.trace = s.trace ++ es) (hreads : es.countP Event.isRead ≤ 1)
    (hlt : l < k) (h : ScanEndsWithin l t) : ScanEndsWithin k s := by
  obtain ⟨n, v, es', hn, hrun, hbusy, hmark', htrace', hreads'⟩ := h
  refine ⟨n + 1, v, es ++ es', by omega, (run_succ n hstep).trans hrun, hbusy, hmark'.trans hmark, ?_, ?_⟩
  · rw [htrace', htrace, List.append_assoc]
  · rw [List.countP_append]
    omega

theorem scan_ends {s : State} (hbusy : s.busy = true) (hcur : s.scan.cur ≤ s.scan.lim) :
    ScanEndsWithin s.scanLeft s := by
  induction hleft : s.scanLeft using Nat.strong_induction_on generalizing s with
  | _ k ih =>
    obtain ⟨t, hstep⟩ := step_scanning_next hbusy
    obtain ⟨hmark, es, htrace, hreads⟩ := step_reads hbusy hstep
    cases ht : t.busy
    · refine ⟨1, t, es, by omega, run_succ 0 hstep, ht, hmark, htrace, hreads.trans ?_⟩
      split
      · rename_i hlt
        have hroom : s.scan.cur.toNat < s.scan.lim.toNat := hlt
        unfold State.scanLeft at hleft
        omega
      · exact Nat.zero_le k
    · obtain ⟨hcur', hlt⟩ := step_scanLeft hbusy hstep ht
      rw [hleft] at hlt
      have hone : es.countP Event.isRead ≤ 1 := hreads.trans (by split <;> decide)
      exact .of_step hstep hmark htrace hone hlt (ih _ hlt ht hcur' rfl)

/-! ## From SCAN itself (R195, R196) -/

section FromScan

variable {s : State}

theorem bootEvent_isRead (s : State) : s.bootEvent.isRead = false := by
  unfold State.bootEvent
  split <;> rfl

theorem openEvent_isRead (s : State) (p : Word) : (s.openEvent p).isRead = false := by
  unfold State.openEvent
  split <;> rfl

/-- Locating the stream takes one read; then the scan ends at once, or the whole stream is left to it. -/
theorem locateStream_ends (hbusy : s.busy = true) :
    s.locateStream.traceMark = s.traceMark ∧
    (∃ es, s.locateStream.trace = s.trace ++ es ∧ es.countP Event.isRead = 1) ∧
    ScanEndsWithin (3 * 0x380) s.locateStream := by
  obtain ⟨hopen, hfail⟩ := locateStream_spec s
  by_cases hp : field s.eromPtr 0 2 = 0#2
  · obtain ⟨u, hu, -, hprobe⟩ := hopen hp
    have hends : ScanEndsWithin (3 * 0x380) (u.openStream s.eromPtr) :=
      scan_ends (s := u.openStream s.eromPtr) (hprobe.busy.trans hbusy) (Nat.zero_le _)
    rw [hu]
    exact ⟨hprobe.traceMark, ⟨_, hprobe.trace, by simp [List.countP_cons, bootEvent_isRead, openEvent_isRead]⟩, hends⟩
  · obtain ⟨u, hu, -, hprobe⟩ := hfail hp
    rw [hu]
    exact ⟨hprobe.traceMark, ⟨_, hprobe.trace, by simp [List.countP_cons, bootEvent_isRead]⟩,
      0, _, [], Nat.zero_le _, rfl, rfl, rfl, (List.append_nil _).symm, Nat.zero_le _⟩

end FromScan

/-- Settles O28: every step of a scan brings its end nearer (`scan_ends`); SCAN's own step reads the pointer. -/
theorem scanEnds : Obligations.ScanEnds := by
  refine ⟨fun s hbusy hcur => ?_, fun s hready hgen => ?_⟩
  · obtain ⟨n, t, -, hn, hrun, ht, -⟩ := scan_ends hbusy hcur
    exact ⟨n, t, hn, hrun, ht⟩
  · obtain ⟨hmark, ⟨es, htrace, hread⟩, hends⟩ := locateStream_ends (s := s.begin.scanPrologue) rfl
    obtain ⟨n, t, es', -, hrun, ht, hmark', htrace', hreads⟩ := hends
    have hevents : t.commandTrace = es ++ es' := by
      refine commandTrace_eq (s := s) ?_ (hmark'.trans hmark)
      rw [htrace', htrace, List.append_assoc]
      rfl
    refine ⟨_, n, t, exec_scan_advanced hready hgen, hrun, ht, ?_⟩
    rw [hevents, ← List.countP_eq_length_filter, List.countP_append]
    omega

end Sys2Proof.Machine
